-- ==== Sys2Proof/Word.lean ====
section
/-! DEFINITION. The word types of the block: bytes, wire words, values to render, host command words. -/

namespace Sys2Proof

/-- One byte on the serial bus, a register value, a digit code (R10, R41). -/
abbrev Byte := BitVec 8

/-- A 16-bit wire command word, and the contents of a device's shift register (R52, R79). -/
abbrev WireWord := BitVec 16

/-- A value to render, read as unsigned (R160). -/
abbrev Value := BitVec 32

/-- A host command word, format H (R70). -/
abbrev Command := BitVec 48

end Sys2Proof
end

