-- ==== Sys2Proof/Syntax.lean ====
section
/-! DEFINITION. The syntax of the command set: slots, display registers, opcodes, error codes and the one inductive of
commands, one constructor per row of spec/opcode_table.json. -/

namespace Sys2Proof

/-- AxisSlot: a logical display (R14, R73); there are exactly three. -/
inductive Slot where
  | x
  | y
  | z
deriving DecidableEq, Repr

/-- The physical position of a device in the chain (R50): first is the device fed by the block. -/
inductive Position where
  | first
  | second
  | third
deriving DecidableEq, Repr

/-- The fourteen registers of the DisplayCommand type (R14, R80). -/
inductive Reg where
  | noOp
  | digit0
  | digit1
  | digit2
  | digit3
  | digit4
  | digit5
  | digit6
  | digit7
  | decode
  | intensity
  | scanLimit
  | shutdown
  | test
deriving DecidableEq, Repr

/-- The nine command names (R72). -/
inductive Opcode where
  | acquire
  | xfer
  | release
  | send
  | config
  | setDigit
  | render
  | showValue
  | stat
deriving DecidableEq, Repr

/-- The five errors a command can raise (R200). -/
inductive ErrorCode where
  /-- The op field names no command. -/
  | illegalOp
  /-- Slot field 3 in a command that takes a slot. -/
  | badSlot
  /-- A must-be-zero bit is set, or SEND names no display register. -/
  | badOperand
  /-- The command needs the link idle and it is acquired. -/
  | linkBusy
  /-- The command needs the link acquired and it is idle. -/
  | linkIdle
deriving DecidableEq, Repr

/-- The commands, one constructor per row of the opcode table (R72). -/
inductive Instr where
  /-- `ACQUIRE` (R100). -/
  | acquire
  /-- `XFER #b` (R102). -/
  | xfer (b : Byte)
  /-- `RELEASE` (R104). -/
  | release
  /-- `SEND s, reg, #v` (R121): `r` is the register ADDRESS, a byte, legal when it is one of R81's. -/
  | send (s : Slot) (r : Byte) (v : Byte)
  /-- `CONFIG s` (R140). -/
  | config (s : Slot)
  /-- `SETDIGIT s, p, #c` (R145). -/
  | setDigit (s : Slot) (p : BitVec 3) (c : Byte)
  /-- `RENDER #v` (R170). -/
  | render (v : Value)
  /-- `SHOW s, #v` (R150). -/
  | showValue (s : Slot) (v : Value)
  /-- `STAT` (R206). -/
  | stat
deriving DecidableEq, Repr

end Sys2Proof
end

