-- ==== Sys2Proof/Config.lean ====
section
/-! DEFINITION. The constants of one build of the hardware (R9, R27): the values the spec takes, and the ones it leaves open
as constants with no body. No command changes any of them. -/

namespace Sys2Proof

/-- The filler byte of a ChainFrame (R9, R120). Log entry 3. -/
def Config.fillerByte : Byte := 0x00

/-- `REG_ADDR`, the address of each display register (R80). Log entry 3. -/
def Config.regAddr : Reg → Byte
  | .noOp => 0x00
  | .digit0 => 0x01
  | .digit1 => 0x02
  | .digit2 => 0x03
  | .digit3 => 0x04
  | .digit4 => 0x05
  | .digit5 => 0x06
  | .digit6 => 0x07
  | .digit7 => 0x08
  | .decode => 0x09
  | .intensity => 0x0A
  | .scanLimit => 0x0B
  | .shutdown => 0x0C
  | .test => 0x0F

/-- The Decode value CONFIG writes: every digit through the font (R141). -/
def Config.cfgDecode : Byte := 0xFF

/-- The ScanLimit value CONFIG writes: digits 0 to 5 (R141). -/
def Config.cfgScanLimit : Byte := 0x05

/-- The Shutdown value CONFIG writes: normal operation (R141). -/
def Config.cfgShutdown : Byte := 0x01

/-- The Intensity value CONFIG writes. The spec leaves it OPEN (R9, R141, U4): a free value, which nothing in Lean can
evaluate, so that a statement about CONFIG holds for every intensity. Log entry 2. -/
opaque Config.cfgIntensity : Byte

/-- The digit that carries the decimal point (R9, R163). Log entry 3. -/
def Config.dpDigit : Fin 6 := 3

/-- How many of the leftmost digits may be blanked (R9, R164). Log entry 3. -/
def Config.blankSpan : Nat := 2

/-- `SHOW_ORDER`: the order in which SHOW writes the digit registers (R9, R151). -/
def Config.showOrder : List (Fin 6) := [0, 1, 2, 3, 4, 5]

/-- Clock polarity and phase of the bus (R9). -/
structure SclkMode where
  polarity : Bool
  phase : Bool
deriving DecidableEq, Repr, Inhabited

/-- `SCLK_MODE`, which the spec leaves OPEN below its level of bus events (R9, R40, U5): no rule depends on it and no
definition of the model reads it. Log entry 14. -/
opaque Config.sclkMode : SclkMode

/-- The characters of the font (R57). -/
inductive Character where
  | digit (n : Fin 10)
  | minus
  | letterE
  | letterH
  | letterL
  | letterP
  | blank
deriving DecidableEq, Repr, Inhabited

/-- How a digit code reads through the font: a character, and whether its decimal point is lit (R57). -/
structure Glyph where
  character : Character
  point : Bool
deriving DecidableEq, Repr, Inhabited

/-- What one digit position of a display shows (R56, R58). DESIGN CHOICE: a view is one of these constant pictures, and the free
values of log entries 11 and 18 range over all of them; so a picture that changes with time has no view. -/
inductive DigitView where
  /-- Shutdown: the display is dark. -/
  | dark
  /-- Test: every segment is lit. -/
  | allSegments
  /-- The digit is beyond the scan limit, so it is not shown (R56, R145). -/
  | notShown
  /-- A decoded code, read through the font. -/
  | glyph (g : Glyph)
  /-- Any pattern of the seven segments and the point, one bit each. The spec gives no numbering of segments and no rule makes
  this view: only a free value can be it. -/
  | segments (lit : BitVec 8)
deriving DecidableEq, Repr, Inhabited

/-- How a decoded digit code appears where the spec leaves it open (U9): a free value for each code, any view and not only a
character of the font. DESIGN CHOICE, log entry 11. -/
opaque Config.openAppearance : Byte → DigitView

/-- What a digit shows in a case for which the spec states no view: a free value, any view, for each content of the registers
that have a function and each digit. DESIGN CHOICE, log entry 18. -/
opaque Config.openView : List Byte → Fin 8 → DigitView

end Sys2Proof
end

