-- ==== Sys2Proof/WellFormed.lean ====
section
/-! DEFINITION. When a command is well formed: every operand is one its encoding admits. Slot, position and value operands
are exact by their types; the one check is SEND's register address (R81). -/

namespace Sys2Proof

/-- Every display register, in the order of R80's table. -/
def Reg.all : List Reg :=
  [.noOp, .digit0, .digit1, .digit2, .digit3, .digit4, .digit5, .digit6, .digit7,
   .decode, .intensity, .scanLimit, .shutdown, .test]

/-- `LEGAL_REG` (R81): the address is that of one of the fourteen display registers. -/
def legalReg (r : Byte) : Bool := Reg.all.any fun g => Config.regAddr g == r

/-- A command is well formed when its operands are ones SEND and the other commands accept (R81; log entry 10). -/
def Instr.wellFormed : Instr → Bool
  | .acquire => true
  | .xfer _ => true
  | .release => true
  | .send _ r _ => legalReg r
  | .config _ => true
  | .setDigit _ _ _ => true
  | .render _ => true
  | .showValue _ _ => true
  | .stat => true

end Sys2Proof
end

