-- ==== Sys2Proof/Decode.lean ====
section
/-! DEFINITION. Decoding a host command word (R70 to R76, R203) and encoding a command. Decoding is total: every word is one
of the nine commands or gets exactly one error. -/

namespace Sys2Proof

/-- `op`, bits 47:44 (R70). -/
def opField (w : Command) : BitVec 4 := w.extractLsb' 44 4

/-- `slot`, bits 43:42 (R70). -/
def slotField (w : Command) : BitVec 2 := w.extractLsb' 42 2

/-- `rsv`, bits 41:40, must be zero in every command (R70). -/
def rsvField (w : Command) : BitVec 2 := w.extractLsb' 40 2

/-- `addr`, bits 39:32 (R70). -/
def addrField (w : Command) : Byte := w.extractLsb' 32 8

/-- The SETDIGIT position, bits 34:32 (R71). -/
def positionField (w : Command) : BitVec 3 := w.extractLsb' 32 3

/-- `data`, bits 31:0 (R70). -/
def dataField (w : Command) : Value := w.extractLsb' 0 32

/-- The byte operand, bits 7:0 (R71). -/
def byteField (w : Command) : Byte := w.extractLsb' 0 8

/-- The opcode map, R72. -/
def Opcode.code : Opcode → BitVec 4
  | .acquire => 0x1
  | .xfer => 0x2
  | .release => 0x3
  | .send => 0x4
  | .config => 0x5
  | .setDigit => 0x6
  | .render => 0x7
  | .showValue => 0x8
  | .stat => 0x9

/-- The must-be-zero bits of each command, R74. -/
def Opcode.mbzMask : Opcode → Command
  | .acquire => 0x0FFFFFFFFFFF
  | .xfer => 0x0FFFFFFFFF00
  | .release => 0x0FFFFFFFFFFF
  | .send => 0x0300FFFFFF00
  | .config => 0x03FFFFFFFFFF
  | .setDigit => 0x03F8FFFFFF00
  | .render => 0x0FFF00000000
  | .showValue => 0x03FF00000000
  | .stat => 0x0FFFFFFFFFFF

/-- The commands, in the order of R72's table. -/
def Opcode.all : List Opcode :=
  [.acquire, .xfer, .release, .send, .config, .setDigit, .render, .showValue, .stat]

/-- The command an op field selects, none for an illegal one (R72, R76). -/
def opcodeOf (f : BitVec 4) : Option Opcode := Opcode.all.find? fun o => o.code == f

/-- The slot a slot field names, none for 3 (R73). -/
def slotOf (f : BitVec 2) : Option Slot :=
  if f = 0 then some .x else if f = 1 then some .y else if f = 2 then some .z else none

/-- Check 2 of R203: go on with the slot, or BAD_SLOT. -/
def withSlot (w : Command) (k : Slot → Except ErrorCode Instr) : Except ErrorCode Instr :=
  match slotOf (slotField w) with
  | some s => k s
  | none => .error .badSlot

/-- Check 3 of R203: go on when the command's must-be-zero bits are clear, else BAD_OPERAND. -/
def withMbz (w : Command) (o : Opcode) (k : Except ErrorCode Instr) : Except ErrorCode Instr :=
  if w &&& o.mbzMask = 0 then k else .error .badOperand

/-- Check 4 of R203: go on when SEND's address is in LEGAL_REG, else BAD_OPERAND. -/
def withReg (w : Command) (k : Except ErrorCode Instr) : Except ErrorCode Instr :=
  if legalReg (addrField w) then k else .error .badOperand

/-- The decoder: the op field first, then the checks in the order of R203 (R75). -/
def decode (w : Command) : Except ErrorCode Instr :=
  match opcodeOf (opField w) with
  | none => .error .illegalOp
  | some .acquire => withMbz w .acquire (.ok .acquire)
  | some .xfer => withMbz w .xfer (.ok (.xfer (byteField w)))
  | some .release => withMbz w .release (.ok .release)
  | some .send => withSlot w fun s =>
      withMbz w .send (withReg w (.ok (.send s (addrField w) (byteField w))))
  | some .config => withSlot w fun s => withMbz w .config (.ok (.config s))
  | some .setDigit => withSlot w fun s =>
      withMbz w .setDigit (.ok (.setDigit s (positionField w) (byteField w)))
  | some .render => withMbz w .render (.ok (.render (dataField w)))
  | some .showValue => withSlot w fun s => withMbz w .showValue (.ok (.showValue s (dataField w)))
  | some .stat => withMbz w .stat (.ok .stat)

/-- The slot field of a slot, R73. -/
def slotCode : Slot → BitVec 2
  | .x => 0
  | .y => 1
  | .z => 2

/-- A format H word from its fields, the reserved field zero (R70). -/
def formatH (op : BitVec 4) (slot : BitVec 2) (addr : Byte) (data : Value) : Command :=
  op ++ slot ++ 0#2 ++ addr ++ data

/-- The encoder, from R70 to R74: every field a command does not use is zero. -/
def encode : Instr → Command
  | .acquire => formatH 0x1 0 0 0
  | .xfer b => formatH 0x2 0 0 (b.zeroExtend 32)
  | .release => formatH 0x3 0 0 0
  | .send s r v => formatH 0x4 (slotCode s) r (v.zeroExtend 32)
  | .config s => formatH 0x5 (slotCode s) 0 0
  | .setDigit s p c => formatH 0x6 (slotCode s) (p.zeroExtend 8) (c.zeroExtend 32)
  | .render v => formatH 0x7 0 0 v
  | .showValue s v => formatH 0x8 (slotCode s) 0 v
  | .stat => formatH 0x9 0 0 0

/-- The command name of a command. -/
def Instr.opcode : Instr → Opcode
  | .acquire => .acquire
  | .xfer _ => .xfer
  | .release => .release
  | .send _ _ _ => .send
  | .config _ => .config
  | .setDigit _ _ _ => .setDigit
  | .render _ => .render
  | .showValue _ _ => .showValue
  | .stat => .stat

/-- The command word whose bits are `w`, of which only the lowest `nbits` are given and the rest are zero. A command is one
48-bit word and the opcode table numbers its bits as R70 does, so the word is the number itself (log entry 7). -/
def tableWord (nbits w : Nat) : Command := BitVec.ofNat 48 (w % 2 ^ nbits)

/-- What the decoder reads from the word of an opcode-table row; none where it reports an error. -/
def decodeTableWord (nbits w : Nat) : Option Instr :=
  match decode (tableWord nbits w) with
  | .ok i => some i
  | .error _ => none

end Sys2Proof
end

