-- ==== Sys2Proof/Machine/State.lean ====
section
/-! DEFINITION. The state of the machine: the block (link, sticky error bits), its ports, the three devices of the reference
model, and the host's coming moves. -/

namespace Sys2Proof.Machine

/-- The link state (R23). -/
inductive Link where
  | idle
  | acquired
deriving DecidableEq, Repr

/-- The sticky error bits of STATUS, bits 5:1 (R25). The LINK bit mirrors `link` and the reserved bits read 0, so neither
is stored (log entry 8). -/
structure Sticky where
  illegal : Bool
  slot : Bool
  operand : Bool
  busy : Bool
  idle : Bool
deriving DecidableEq, Repr

/-- The three kinds of event on the serial bus (R41). -/
inductive BusEvent where
  | csLow
  | byte (b : Byte)
  | csHigh
deriving DecidableEq, Repr

/-- The response to one command (R78). -/
structure Response where
  status : BitVec 3
  result : BitVec 48
deriving DecidableEq, Repr

/-- A display controller of the reference model: its 16-bit shift register and its sixteen registers (R52). -/
structure Device where
  sr : WireWord
  regs : Vector Byte 16
deriving DecidableEq, Repr

/-- The three chained devices (R50, R51). -/
structure Chain where
  dev1 : Device
  dev2 : Device
  dev3 : Device
deriving DecidableEq, Repr

/-- What the host does at the block's inputs (R30, R217, R230): present any 48-bit word, or assert reset. -/
inductive HostMove where
  | present (w : Command)
  | assertReset
deriving DecidableEq, Repr

/-- The ways the machine stops with a fault: NONE. No rule of the spec stops the block: an error is a response (R201, R208)
and every command ends (R248). Nobody raises a fault, so there is no constructor (log entry 13). -/
inductive Fault where
deriving DecidableEq, Repr

/-- Why a command has no meaning in the model. -/
inductive Refusal where
  /-- A command of the opcode table that the model gives no meaning yet, by its mnemonic. Raised by an arm of `exec` only;
  no arm raises it now. Safe: the machine stops. -/
  | notModelled (mnemonic : String)
deriving DecidableEq, Repr

/-- The whole state. -/
structure State where
  /-- The link state (R23). -/
  link : Link
  /-- The sticky bits of STATUS (R25). -/
  sticky : Sticky
  /-- The devices on the bus (R52). -/
  chain : Chain
  /-- The response port: the response given in the last step, if one was (R30, R78; log entry 6). -/
  response : Option Response
  /-- The serial port: the bus events emitted in the last step, oldest first (R33, R41; log entry 6). -/
  trace : List BusEvent
  /-- The host's coming moves, in the order it makes them (R22, R217; log entry 5). -/
  host : List HostMove
deriving DecidableEq, Repr

/-- Every sticky bit clear (R230). -/
def Sticky.clear : Sticky := ⟨false, false, false, false, false⟩

/-- The state after power-on with the devices holding `c`, which the spec leaves at any value (R230, R232). -/
def State.powerOn (c : Chain) : State :=
  { link := .idle, sticky := .clear, chain := c, response := none, trace := [], host := [] }

/-- A device whose shift register and registers are all zero. -/
def Device.zero : Device := ⟨0, Vector.replicate 16 0⟩

/-- The chain the model names at reset. DESIGN CHOICE, unsafe: the spec leaves the devices' power-on values unspecified
(R52, R232). Log entry 1. -/
def Chain.zero : Chain := ⟨.zero, .zero, .zero⟩

/-- The machine right after reset (R230), no word presented yet. -/
def State.reset : State := .powerOn .zero

end Sys2Proof.Machine
end

