-- ==== Sys2Proof/Machine/Devices.lean ====
section
/-! DEFINITION. The devices' reaction to bus events: the reference model of the chain (R50 to R55). Log entry 4. -/

namespace Sys2Proof.Machine

/-- `hi ++ lo` of two bytes (R11). -/
def bytePair (hi lo : Byte) : WireWord := hi ++ lo

/-- Bits 15:8 of a wire word. -/
def highByte (w : WireWord) : Byte := w.extractLsb' 8 8

/-- Bits 7:0 of a wire word. -/
def lowByte (w : WireWord) : Byte := w.extractLsb' 0 8

/-- Bits 11:8, the address a device decodes (R55, R79). -/
def wireAddr (w : WireWord) : BitVec 4 := w.extractLsb' 8 4

/-- `DevReg[j][a]`, read for observation only: no command reads it (R62). -/
def Device.reg (d : Device) (a : BitVec 4) : Byte := d.regs[a.toNat]'a.isLt

/-- `DevReg[j][a] <- v` (R12). -/
def Device.setReg (d : Device) (a : BitVec 4) (v : Byte) : Device :=
  { d with regs := d.regs.set a.toNat v a.isLt }

/-- One device at a rising chip select: address 0 is a no-op, any other is written; the shift register stays (R55). -/
def Device.latch (d : Device) : Device :=
  if wireAddr d.sr = 0 then d else d.setReg (wireAddr d.sr) (lowByte d.sr)

/-- The device at a position. -/
def Chain.dev (c : Chain) : Position → Device
  | .first => c.dev1
  | .second => c.dev2
  | .third => c.dev3

/-- A byte on the bus: each device takes eight bits from the one before it, all at once from the old values (R51, R53). -/
def Chain.shift (c : Chain) (b : Byte) : Chain :=
  { dev1 := { c.dev1 with sr := bytePair (lowByte c.dev1.sr) b }
    dev2 := { c.dev2 with sr := bytePair (lowByte c.dev2.sr) (highByte c.dev1.sr) }
    dev3 := { c.dev3 with sr := bytePair (lowByte c.dev3.sr) (highByte c.dev2.sr) } }

/-- A rising chip select: every device latches (R55). -/
def Chain.latch (c : Chain) : Chain := ⟨c.dev1.latch, c.dev2.latch, c.dev3.latch⟩

/-- What the chain does on one bus event (R53 to R55). -/
def Chain.react (c : Chain) : BusEvent → Chain
  | .csLow => c
  | .byte b => c.shift b
  | .csHigh => c.latch

/-- What the chain does on a list of bus events, oldest first (R60). -/
def Chain.drive (c : Chain) (es : List BusEvent) : Chain := es.foldl Chain.react c

end Sys2Proof.Machine
end

