-- ==== Sys2Proof/Machine/Flags.lean ====
section
/-! DEFINITION. The STATUS register: which bit each error sets, and STATUS as a command reads it (R25, R200, R202); the
chip-select line as a function of the link state (R24). -/

namespace Sys2Proof.Machine

/-- The error's code in a response (R78, R200). -/
def errorStatus : ErrorCode → BitVec 3
  | .illegalOp => 1
  | .badSlot => 2
  | .badOperand => 3
  | .linkBusy => 4
  | .linkIdle => 5

/-- The response status of success (R78). -/
def okStatus : BitVec 3 := 0

/-- Set the sticky bit an error names (R200, R202). -/
def Sticky.set (f : Sticky) : ErrorCode → Sticky
  | .illegalOp => { f with illegal := true }
  | .badSlot => { f with slot := true }
  | .badOperand => { f with operand := true }
  | .linkBusy => { f with busy := true }
  | .linkIdle => { f with idle := true }

/-- Whether the sticky bit an error names is set. -/
def Sticky.has (f : Sticky) : ErrorCode → Bool
  | .illegalOp => f.illegal
  | .badSlot => f.slot
  | .badOperand => f.operand
  | .linkBusy => f.busy
  | .linkIdle => f.idle

/-- The link state as a bit: IDLE 0, ACQUIRED 1 (R23). -/
def linkBit : Link → BitVec 1
  | .idle => 0
  | .acquired => 1

/-- STATUS from its parts: bits 7:6 zero, the sticky bits in 5:1, LINK in bit 0 (R25). -/
def statusByte (l : Link) (f : Sticky) : Byte :=
  0#2 ++ BitVec.ofBool f.idle ++ BitVec.ofBool f.busy ++ BitVec.ofBool f.operand ++ BitVec.ofBool f.slot
    ++ BitVec.ofBool f.illegal ++ linkBit l

/-- STATUS as it reads (R25). -/
def State.status (s : State) : Byte := statusByte s.link s.sticky

/-- The chip-select output: 1 when the link is idle, 0 when it is acquired (R24). -/
def State.csN (s : State) : BitVec 1 :=
  match s.link with
  | .idle => 1
  | .acquired => 0

end Sys2Proof.Machine
end

