-- ==== Sys2Proof/Machine/Operands.lean ====
section
/-! DEFINITION. The operand forms: slots and chain positions, ChainFrames, digit register addresses, and the packing of six
digit codes into a response. -/

namespace Sys2Proof.Machine

/-- `pos(s)` (R28, R50). -/
def pos : Slot → Position
  | .x => .first
  | .y => .second
  | .z => .third

/-- The number of a position in the chain, counted from the block (R50). -/
def posNumber : Position → Nat
  | .first => 1
  | .second => 2
  | .third => 3

/-- `lead(s)`, the filler bytes before the command (R8, R120). -/
def lead : Slot → Nat
  | .x => 4
  | .y => 2
  | .z => 0

/-- `trail(s)`, the filler bytes after the command (R8, R120). -/
def trail (s : Slot) : Nat := 4 - lead s

/-- The ChainFrame of a device command: the register byte first (R42, R120). -/
def frame (s : Slot) (r v : Byte) : List Byte :=
  List.replicate (lead s) Config.fillerByte ++ [r, v] ++ List.replicate (trail s) Config.fillerByte

/-- `REG_ADDR(Digit p)` (R80, R146). -/
def digitAddr (p : BitVec 3) : Byte :=
  Config.regAddr (match p.toNat with
    | 0 => .digit0
    | 1 => .digit1
    | 2 => .digit2
    | 3 => .digit3
    | 4 => .digit4
    | 5 => .digit5
    | 6 => .digit6
    | _ => .digit7)

/-- A DigitBuffer: the code for register Digit `k` at index `k` (R14, R161). -/
abbrev DigitBuffer := Vector Byte 6

/-- The six codes as a response result: `result[8k+7:8k] = code[k]` (R78). -/
def packCodes (codes : DigitBuffer) : BitVec 48 :=
  codes[5] ++ codes[4] ++ codes[3] ++ codes[2] ++ codes[1] ++ codes[0]

end Sys2Proof.Machine
end

