-- ==== Sys2Proof/Machine/Ops.lean ====
section
/-! DEFINITION. The named operations every command is built from: updates of the state, bus events, the chip-select cycle,
frames, responses, raising an error (the block's one exception, R201), and the reset input. -/

namespace Sys2Proof.Machine

/-- `link <- l` (R12). -/
def State.setLink (l : Link) (s : State) : State := { s with link := l }

/-- Replace the sticky bits. -/
def State.setSticky (f : Sticky) (s : State) : State := { s with sticky := f }

/-- Replace the response port. -/
def State.setResponse (r : Option Response) (s : State) : State := { s with response := r }

/-- Replace the trace. -/
def State.setTrace (t : List BusEvent) (s : State) : State := { s with trace := t }

/-- Replace the host's coming moves. -/
def State.setHost (h : List HostMove) (s : State) : State := { s with host := h }

/-- `emit(e)`: the event joins the output trace (R12) and the devices react to it (R53 to R55). -/
def State.emit (e : BusEvent) (s : State) : State :=
  { s with trace := s.trace ++ [e], chain := s.chain.react e }

/-- Emit bytes in order. -/
def State.emitBytes (bs : List Byte) (s : State) : State := bs.foldl (fun t b => t.emit (.byte b)) s

/-- Drive chip select low and open a cycle (R100). -/
def openCycle (s : State) : State := (s.emit .csLow).setLink .acquired

/-- Drive chip select high and close the cycle (R104). -/
def closeCycle (s : State) : State := (s.emit .csHigh).setLink .idle

/-- `send_frame(s, r, v)` (R139): one frame in one chip-select cycle. -/
def sendFrame (sl : Slot) (r v : Byte) (s : State) : State :=
  closeCycle ((openCycle s).emitBytes (frame sl r v))

/-- Frames to one slot, in order, each a register address and a value. -/
def sendFrames (sl : Slot) (cmds : List (Byte × Byte)) (s : State) : State :=
  cmds.foldl (fun t c => sendFrame sl c.1 c.2 t) s

/-- `respond(OK, result)` (R12, R78). -/
def respond (result : BitVec 48) (s : State) : State := s.setResponse (some ⟨okStatus, result⟩)

/-- `raise Error(code)` (R12, R201, R202): the error's sticky bit and its response, nothing else. Nothing is saved and
control goes nowhere; there is no return from it (R208, R209). -/
def raiseError (e : ErrorCode) (s : State) : State :=
  (s.setSticky (s.sticky.set e)).setResponse (some ⟨errorStatus e, 0⟩)

/-- Check 5 of R204: LINK_BUSY while the link is acquired. -/
def whenIdle (s : State) (body : State → State) : State :=
  match s.link with
  | .idle => body s
  | .acquired => raiseError .linkBusy s

/-- Check 6 of R204: LINK_IDLE while the link is idle. -/
def whenAcquired (s : State) (body : State → State) : State :=
  match s.link with
  | .acquired => body s
  | .idle => raiseError .linkIdle s

/-- The reset input (R230 to R232): an open cycle is closed, which the devices see as one CsHigh; the sticky bits are
cleared; the devices are not reset. -/
def applyReset (s : State) : State :=
  let closed := match s.link with
    | .acquired => closeCycle s
    | .idle => s
  (closed.setSticky .clear).setResponse none

/-- The start of a step: the response and trace of the step before are gone (R33, R230; log entry 6). -/
def clearPorts (s : State) : State := (s.setResponse none).setTrace []

/-- Take the host's next move: the move, if there is one, and the state in which the block acts on it. -/
def takeMove (s : State) : Option HostMove × State :=
  match s.host with
  | [] => (none, clearPorts s)
  | m :: rest => (some m, (clearPorts s).setHost rest)

/-- The state with a command word put before the host's other moves (log entry 7). -/
def presentFirst (w : Command) (s : State) : State := s.setHost (.present w :: s.host)

end Sys2Proof.Machine
end

