-- ==== Sys2Proof/Machine/ChainRouter.lean ====
section
/-! DEFINITION. The ChainRouter command SEND (R120 to R125). -/

namespace Sys2Proof.Machine

/-- `SEND s, reg, #v` (R121). The decoder has run check 4 of R203 already; a SEND term whose address is not legal, which no
word decodes to, raises the error of that check (log entry 10). -/
def execSend (sl : Slot) (r v : Byte) (s : State) : Host.Outcome State Fault Refusal :=
  .next (if legalReg r then whenIdle s fun t => respond 0 (sendFrame sl r v t) else raiseError .badOperand s)

end Sys2Proof.Machine
end

