-- ==== Sys2Proof/Machine/NumberRenderer.lean ====
section
/-! DEFINITION. The NumberRenderer and its command RENDER (R160 to R170). -/

namespace Sys2Proof.Machine

/-- `d[k]`, the decimal digit of weight `10^k` of the unsigned value (R160, R161). -/
def digit (v : Value) (k : Nat) : Nat := v.toNat / 10 ^ k % 10

/-- The digit as a digit code. -/
def digitCode (v : Value) (k : Nat) : Byte := BitVec.ofNat 8 (digit v k)

/-- The blank code (R8, R164). -/
def blankCode : Byte := 0x0F

/-- The decimal-point flag (R8, R163). -/
def pointFlag : Byte := 0x80

/-- One turn of R161's blanking loop, for digit `k`: `leading` is the flag of the loop. -/
def blankTurn (v : Value) (code : DigitBuffer × Bool) (k : Fin 6) : DigitBuffer × Bool :=
  if code.2 && digit v k == 0 then (code.1.set k blankCode, true) else (code.1, false)

/-- The digits the blanking loop visits, leftmost first: `k = 5` down to `6 - span` (R161). -/
def blankOrder (span : Nat) : List (Fin 6) := ([5, 4, 3, 2, 1, 0] : List (Fin 6)).take span

/-- The six plain digits of a value. -/
def plainCodes (v : Value) : DigitBuffer :=
  #v[digitCode v 0, digitCode v 1, digitCode v 2, digitCode v 3, digitCode v 4, digitCode v 5]

/-- R161's function with the decimal-point digit and the blanking span as arguments (R169): digits, blanking, point. -/
def renderWith (dp : Fin 6) (span : Nat) (v : Value) : DigitBuffer :=
  let blanked := ((blankOrder span).foldl (blankTurn v) (plainCodes v, true)).1
  blanked.set dp (blanked[dp] ||| pointFlag)

/-- `render(v)` (R161). -/
def renderValue (v : Value) : DigitBuffer := renderWith Config.dpDigit Config.blankSpan v

/-- `RENDER #v` (R170): accepted in either link state, no bus event. -/
def execRender (v : Value) (s : State) : Host.Outcome State Fault Refusal :=
  .next (respond (packCodes (renderValue v)) s)

end Sys2Proof.Machine
end

