-- ==== Sys2Proof/Machine/DisplayController.lean ====
section
/-! DEFINITION. The DisplayController commands CONFIG, SETDIGIT and SHOW (R139 to R153). -/

namespace Sys2Proof.Machine

/-- The four register writes of the configure sequence, in order (R140 to R142). -/
def configWrites : List (Byte × Byte) :=
  [(Config.regAddr .decode, Config.cfgDecode), (Config.regAddr .scanLimit, Config.cfgScanLimit),
   (Config.regAddr .intensity, Config.cfgIntensity), (Config.regAddr .shutdown, Config.cfgShutdown)]

/-- The six register writes of SHOW, in order (R150, R151). -/
def showWrites (codes : DigitBuffer) : List (Byte × Byte) :=
  Config.showOrder.map fun (k : Fin 6) => (digitAddr (BitVec.ofNat 3 k.val), codes[k])

/-- `CONFIG s` (R140). -/
def execConfig (sl : Slot) (s : State) : Host.Outcome State Fault Refusal :=
  .next (whenIdle s fun t => respond 0 (sendFrames sl configWrites t))

/-- `SETDIGIT s, p, #c` (R145): the code passes unchanged (R147). -/
def execSetDigit (sl : Slot) (p : BitVec 3) (c : Byte) (s : State) : Host.Outcome State Fault Refusal :=
  .next (whenIdle s fun t => respond 0 (sendFrame sl (digitAddr p) c t))

/-- `SHOW s, #v` (R150): render, then write every digit, suppressing none (R20). -/
def execShowValue (sl : Slot) (v : Value) (s : State) : Host.Outcome State Fault Refusal :=
  .next (whenIdle s fun t =>
    respond (packCodes (renderValue v)) (sendFrames sl (showWrites (renderValue v)) t))

end Sys2Proof.Machine
end

