-- ==== Sys2Proof/Machine/SerialLink.lean ====
section
/-! DEFINITION. The SerialLink commands ACQUIRE, XFER and RELEASE (R100 to R107). -/

namespace Sys2Proof.Machine

/-- `ACQUIRE` (R100). -/
def execAcquire (s : State) : Host.Outcome State Fault Refusal :=
  .next (whenIdle s fun t => respond 0 (openCycle t))

/-- `XFER #b` (R102, R103). -/
def execXfer (b : Byte) (s : State) : Host.Outcome State Fault Refusal :=
  .next (whenAcquired s fun t => respond 0 (t.emit (.byte b)))

/-- `RELEASE` (R104). -/
def execRelease (s : State) : Host.Outcome State Fault Refusal :=
  .next (whenAcquired s fun t => respond 0 (closeCycle t))

end Sys2Proof.Machine
end

