-- ==== Sys2Proof/Machine/StatusCommand.lean ====
section
/-! DEFINITION. The status command STAT (R206). -/

namespace Sys2Proof.Machine

/-- `STAT` (R206): STATUS as it stood before the command, zero-extended (R78). -/
def execStat (s : State) : Host.Outcome State Fault Refusal :=
  .next (respond (s.status.zeroExtend 48) s)

end Sys2Proof.Machine
end

