-- ==== Sys2Proof/Machine/Dispatch.lean ====
section
/-! DEFINITION. The meaning of every command, one arm per constructor. -/

namespace Sys2Proof.Machine

def exec (i : Instr) (s : State) : Host.Outcome State Fault Refusal :=
  match i with
  | .acquire => Sys2Proof.Machine.execAcquire s
  | .xfer b => Sys2Proof.Machine.execXfer b s
  | .release => Sys2Proof.Machine.execRelease s
  | .send sl r v => Sys2Proof.Machine.execSend sl r v s
  | .config sl => Sys2Proof.Machine.execConfig sl s
  | .setDigit sl p c => Sys2Proof.Machine.execSetDigit sl p c s
  | .render v => Sys2Proof.Machine.execRender v s
  | .showValue sl v => Sys2Proof.Machine.execShowValue sl v s
  | .stat => Sys2Proof.Machine.execStat s

end Sys2Proof.Machine
end

