-- ==== Sys2Proof/Machine/Step.lean ====
section
/-! DEFINITION. One step of the machine: the host's next move, taken whole (R33). -/

namespace Sys2Proof.Machine

/-- One step. With no move pending the block waits (R233). A reset takes effect between commands (R230). A command word that
fails a check of R203 raises its error; any other runs its command. -/
def step (s : State) : Host.Outcome State Fault Refusal :=
  match takeMove s with
  | (none, t) => .next t
  | (some .assertReset, t) => .next (applyReset t)
  | (some (.present w), t) =>
    match decode w with
    | .ok i => exec i t
    | .error e => .next (raiseError e t)

/-- `s` with the opcode-table word presented as the host's very next move, so that the next step runs it (log entry 7). -/
def State.withFetchWord (s : State) (nbits w : Nat) : State := presentFirst (tableWord nbits w) s

end Sys2Proof.Machine
end

