-- ==== Sys2Proof/Machine/Assembly.lean ====
section
/-! DEFINITION. The assembly notation: the text of a command (R82) and the pseudo-commands with their expansions (R83). -/

namespace Sys2Proof.Machine

/-- The name of a slot operand (R82). -/
def slotText : Slot → String
  | .x => "X"
  | .y => "Y"
  | .z => "Z"

/-- The name of a display register (R80). -/
def regText : Reg → String
  | .noOp => "NoOp"
  | .digit0 => "Digit0"
  | .digit1 => "Digit1"
  | .digit2 => "Digit2"
  | .digit3 => "Digit3"
  | .digit4 => "Digit4"
  | .digit5 => "Digit5"
  | .digit6 => "Digit6"
  | .digit7 => "Digit7"
  | .decode => "Decode"
  | .intensity => "Intensity"
  | .scanLimit => "ScanLimit"
  | .shutdown => "Shutdown"
  | .test => "Test"

/-- The register an address names, none outside LEGAL_REG (R80, R81). -/
def regAt (a : Byte) : Option Reg := Reg.all.find? fun g => Config.regAddr g == a

/-- A number operand, in decimal (R82; log entry 17). -/
def numberText (n : Nat) : String := "#" ++ Nat.repr n

/-- The assembly text of a command (R82); none for a SEND whose address has no register name. -/
def asmText : Instr → Option String
  | .acquire => some "ACQUIRE"
  | .xfer b => some ("XFER " ++ numberText b.toNat)
  | .release => some "RELEASE"
  | .send s r v => (regAt r).map fun g =>
      "SEND " ++ slotText s ++ ", " ++ regText g ++ ", " ++ numberText v.toNat
  | .config s => some ("CONFIG " ++ slotText s)
  | .setDigit s p c => some ("SETDIGIT " ++ slotText s ++ ", " ++ Nat.repr p.toNat ++ ", " ++ numberText c.toNat)
  | .render v => some ("RENDER " ++ numberText v.toNat)
  | .showValue s v => some ("SHOW " ++ slotText s ++ ", " ++ numberText v.toNat)
  | .stat => some "STAT"

/-- The pseudo-commands (R83). -/
inductive Pseudo where
  | blank (s : Slot) (p : BitVec 3)
  | testOff (s : Slot)
  | wake (s : Slot)
  | sleep (s : Slot)
  | rawFrame (s : Slot) (g : Reg) (v : Byte)
deriving DecidableEq, Repr

/-- The commands a pseudo-command stands for (R83). -/
def expand : Pseudo → List Instr
  | .blank s p => [.setDigit s p 0x0F]
  | .testOff s => [.send s (Config.regAddr .test) 0x00]
  | .wake s => [.send s (Config.regAddr .shutdown) 0x01]
  | .sleep s => [.send s (Config.regAddr .shutdown) 0x00]
  | .rawFrame s g v =>
      [.acquire] ++ List.replicate (lead s) (.xfer Config.fillerByte) ++ [.xfer (Config.regAddr g), .xfer v]
        ++ List.replicate (trail s) (.xfer Config.fillerByte) ++ [.release]

end Sys2Proof.Machine
end

