-- ==== Sys2Proof/Machine/DataLine.lean ====
section
/-! DEFINITION. The data line below the level of bus events: a byte as eight bits, most significant first (R43), and the
chain shifting one bit at a time. `step` uses none of it: a `byte` event is R53's shift. DEDUCED, log entry 15. -/

namespace Sys2Proof.Machine

/-- The bits of a byte in the order they are sent, most significant first (R43). -/
def serialBits (b : Byte) : List Bool :=
  [b.getLsbD 7, b.getLsbD 6, b.getLsbD 5, b.getLsbD 4, b.getLsbD 3, b.getLsbD 2, b.getLsbD 1, b.getLsbD 0]

/-- One bit shifted into the low end of a shift register. -/
def shiftBitIn (w : WireWord) (b : Bool) : WireWord := w.extractLsb' 0 15 ++ BitVec.ofBool b

/-- One clock of the data line: each device takes the bit shifted out of the one before it, all at once (R51, R53). -/
def Chain.shiftBit (c : Chain) (b : Bool) : Chain :=
  { dev1 := { c.dev1 with sr := shiftBitIn c.dev1.sr b }
    dev2 := { c.dev2 with sr := shiftBitIn c.dev2.sr (c.dev1.sr.getLsbD 15) }
    dev3 := { c.dev3 with sr := shiftBitIn c.dev3.sr (c.dev2.sr.getLsbD 15) } }

/-- A list of bits on the data line, first bit first. -/
def Chain.shiftBits (c : Chain) (bs : List Bool) : Chain := bs.foldl Chain.shiftBit c

end Sys2Proof.Machine
end

