-- ==== Sys2Proof/Machine/Display.lean ====
section
/-! DEFINITION. What a display shows: the meaning of the device registers, the font, and the view of every digit (R56 to R58,
which the spec gives as informative). Observation only: no command reads any of it. -/

namespace Sys2Proof.Machine

/-- The character of the low four bits of a digit code (R57). -/
def fontCharacter (n : BitVec 4) : Character :=
  if h : n.toNat < 10 then .digit ⟨n.toNat, h⟩
  else if n = 0xA then .minus
  else if n = 0xB then .letterE
  else if n = 0xC then .letterH
  else if n = 0xD then .letterL
  else if n = 0xE then .letterP
  else .blank

/-- The font under decode: bits 3:0 the character, bits 6:4 ignored, bit 7 the point (R57). -/
def font (c : Byte) : Glyph := ⟨fontCharacter (c.extractLsb' 0 4), c.getLsbD 7⟩

/-- A code whose appearance the spec leaves open, whatever R57 says of it for information: the codes 0x0A to 0x0E, and any code
with a bit of 6:4 set (U9). The codes 0x8A to 0x8E are not among them: R57 gives their character and their point. -/
def openCode (c : Byte) : Bool :=
  (decide (0x0A ≤ c) && decide (c ≤ 0x0E)) || c.extractLsb' 4 3 != 0

/-- How a decoded code appears: the font's glyph, or a free value where the spec leaves it open (log entry 11). -/
def appearance (c : Byte) : DigitView := if openCode c then Config.openAppearance c else .glyph (font c)

/-- Shutdown bit 0 set: normal operation, the display is not dark (R56). -/
def Device.poweredOn (d : Device) : Bool := (d.reg 0xC).getLsbD 0

/-- Test bit 0 set: every segment is lit (R56). -/
def Device.lampTest (d : Device) : Bool := (d.reg 0xF).getLsbD 0

/-- Decode bit `k` set: digit `k` is shown through the font (R56). -/
def Device.decodes (d : Device) (k : Fin 8) : Bool := (d.reg 0x9).getLsbD k

/-- ScanLimit bits 2:0, the last digit that is scanned (R56). -/
def Device.scanLimit (d : Device) : BitVec 3 := (d.reg 0xB).extractLsb' 0 3

/-- Intensity bits 3:0 (R56). -/
def Device.intensity (d : Device) : BitVec 4 := (d.reg 0xA).extractLsb' 0 4

/-- The register of digit `k`, address `k + 1` (R56). -/
def Device.digitReg (d : Device) (k : Fin 8) : Byte := d.reg (BitVec.ofNat 4 (k + 1))

/-- The registers that have a function, 0x1 to 0xC and 0xF: 0x0 is NoOp, 0xD and 0xE have none (R55, R56). -/
def Device.displayRegs (d : Device) : List Byte :=
  ([0x1, 0x2, 0x3, 0x4, 0x5, 0x6, 0x7, 0x8, 0x9, 0xA, 0xB, 0xC, 0xF] : List (BitVec 4)).map d.reg

/-- What digit `k` shows where the spec states no view (log entry 18). -/
def Device.openView (d : Device) (k : Fin 8) : DigitView := Config.openView d.displayRegs k

/-- Digit `k` is scanned: it is one of digits 0 to ScanLimit (R56). -/
def Device.scans (d : Device) (k : Fin 8) : Bool := decide (k.val ≤ d.scanLimit.toNat)

/-- What digit `k` shows in normal operation: nothing when it is not scanned (R56, R145, conflict C3), the appearance of the
code in its register when it is scanned and decoded (R58), and a free value when it is scanned and not decoded. -/
def Device.normalView (d : Device) (k : Fin 8) : DigitView :=
  if !d.scans k then .notShown
  else if d.decodes k then appearance (d.digitReg k)
  else d.openView k

/-- What digit `k` of a device shows (R56, R58): dark in shutdown, every segment lit under lamp test, `normalView` in normal
operation. In shutdown and lamp test at once R56 says both, so the view is a free value (log entry 18). -/
def Device.displays (d : Device) (k : Fin 8) : DigitView :=
  match d.poweredOn, d.lampTest with
  | true, false => d.normalView k
  | false, false => .dark
  | true, true => .allSegments
  | false, true => d.openView k

end Sys2Proof.Machine
end

