-- ==== Sys2Proof/Safety.lean ====
section
/-! DEFINITION. The terms the statements use: the order of bus events (R41), the checks of R203 and R204 written as the spec
lists them, the well-formed outputs of a step, the bus output of a run, and commands run one after another. -/

namespace Sys2Proof.Machine

/-- The order in which bus events may come (R41): CsLow only while chip select is high, Byte and CsHigh only while it is
low. The link state says which it is (R24). -/
def busStep : Link → BusEvent → Option Link
  | .idle, .csLow => some .acquired
  | .acquired, .byte _ => some .acquired
  | .acquired, .csHigh => some .idle
  | .idle, .byte _ => none
  | .idle, .csHigh => none
  | .acquired, .csLow => none

/-- The link state a list of bus events leads to, none when one of them is out of order. -/
def busRun (l : Link) (es : List BusEvent) : Option Link := es.foldlM busStep l

/-- A display-register address, as R81 writes the set. -/
def inLegalSet (r : Byte) : Bool := decide (r ≤ 0x0C) || r == 0x0F

/-- The must-be-zero mask of a legal op value (R74). -/
def mbzOfOp (op : BitVec 4) : Command :=
  match op.toNat with
  | 0x2 => 0x0FFFFFFFFF00
  | 0x4 => 0x0300FFFFFF00
  | 0x5 => 0x03FFFFFFFFFF
  | 0x6 => 0x03F8FFFFFF00
  | 0x7 => 0x0FFF00000000
  | 0x8 => 0x03FF00000000
  | _ => 0x0FFFFFFFFFFF

/-- Checks 1 to 4, in the order and the words of R203. -/
def decodeChecks (w : Command) : Option ErrorCode :=
  let op := opField w
  if op = 0x0 ∨ 0xA ≤ op then some .illegalOp
  else if op ∈ [0x4#4, 0x5#4, 0x6#4, 0x8#4] ∧ slotField w = 3 then some .badSlot
  else if w &&& mbzOfOp op ≠ 0 then some .badOperand
  else if op = 0x4 ∧ inLegalSet (addrField w) = false then some .badOperand
  else none

/-- Checks 5 and 6, in the order and the words of R204. -/
def linkChecks (w : Command) (l : Link) : Option ErrorCode :=
  let op := opField w
  if op ∈ [0x1#4, 0x4#4, 0x5#4, 0x6#4, 0x8#4] ∧ l = .acquired then some .linkBusy
  else if op ∈ [0x2#4, 0x3#4] ∧ l = .idle then some .linkIdle
  else none

/-- The error a command word reports: the first failing check, 1 to 6 (R205); none where it passes them all. -/
def commandChecks (w : Command) (l : Link) : Option ErrorCode :=
  match decodeChecks w with
  | some e => some e
  | none => linkChecks w l

/-- The outputs of a step are well formed (R78, R200, R201, R247): no status above 5; an error has result 0 and no bus event;
the number of events is one of the fixed counts; with no response there is at most the one event of a reset (R231). -/
def OutputsOk (s : State) : Prop :=
  match s.response with
  | none => s.trace = [] ∨ s.trace = [.csHigh]
  | some r =>
    r.status.toNat ≤ 5 ∧ (r.status ≠ 0 → r.result = 0 ∧ s.trace = []) ∧ s.trace.length ∈ [0, 1, 8, 32, 48]

/-- All bus events of `n` steps from `s`, oldest first. -/
def busOutput : Nat → State → List BusEvent
  | 0, _ => []
  | n + 1, s =>
    match step s with
    | .next t => t.trace ++ busOutput n t
    | .fault _ => []
    | .refused _ => []

/-- The outcome of `n` steps. -/
def afterSteps : Nat → State → Host.Outcome State Fault Refusal
  | 0, s => .next s
  | n + 1, s =>
    match step s with
    | .next t => afterSteps n t
    | .fault f => .fault f
    | .refused r => .refused r

/-- The events of a cycle that is still open: chip select driven low and the bytes sent so far (R41). -/
def openTail : Option (List Byte) → List BusEvent
  | none => []
  | some bs => .csLow :: bs.map .byte

/-- Commands given one after another, each executed in the state the one before it left; the bus events accumulate. -/
def execAll : List Instr → State → Host.Outcome State Fault Refusal
  | [], s => .next s
  | i :: is, s =>
    match exec i s with
    | .next t => execAll is t
    | .fault f => .fault f
    | .refused r => .refused r

/-- One chip-select cycle around a list of bytes (R41). -/
def cycleOf (bs : List Byte) : List BusEvent := .csLow :: bs.map .byte ++ [.csHigh]

/-- The ChainFrame of each slot as R120's table writes it out. -/
def tableFrame (s : Slot) (r v : Byte) : List Byte :=
  match s with
  | .x => [0x00, 0x00, 0x00, 0x00, r, v]
  | .y => [0x00, 0x00, r, v, 0x00, 0x00]
  | .z => [r, v, 0x00, 0x00, 0x00, 0x00]

/-- The 48 bits of the three shift registers as six bytes, the one shifted in longest ago first (R53). -/
def chainBytes (c : Chain) : List Byte :=
  [highByte c.dev3.sr, lowByte c.dev3.sr, highByte c.dev2.sr, lowByte c.dev2.sr, highByte c.dev1.sr, lowByte c.dev1.sr]

/-- How many bus events a command emits when it succeeds (R247). -/
def eventCount : Opcode → Nat
  | .acquire => 1
  | .xfer => 1
  | .release => 1
  | .send => 8
  | .config => 32
  | .setDigit => 8
  | .render => 0
  | .showValue => 48
  | .stat => 0

/-- The device registers a command can write, by address: none for a command that sends no frame and closes no cycle
(R123, R140, R145, R150). A RELEASE writes what each device's shift register addresses (R55). -/
def writtenRegs (c : Chain) (p : Position) : Instr → List (BitVec 4)
  | .acquire => []
  | .xfer _ => []
  | .release => [wireAddr (c.dev p).sr]
  | .send s r v => if p = pos s then [wireAddr (bytePair r v)] else []
  | .config s => if p = pos s then [0x9, 0xA, 0xB, 0xC] else []
  | .setDigit s q c => if p = pos s then [wireAddr (bytePair (digitAddr q) c)] else []
  | .render _ => []
  | .showValue s _ => if p = pos s then [0x1, 0x2, 0x3, 0x4, 0x5, 0x6] else []
  | .stat => []

/-- The decimal digit a digit code shows: a blank counts as zero, the point does not count (R166). -/
def shownDigit (code : Byte) : Nat := if code = 0x0F then 0 else (code &&& 0x7F).toNat

/-- `blank(k)` of R169: the digit lies within the span, and it and every digit to its left are zero. -/
def blankAt (span : Nat) (v : Value) (k : Fin 6) : Prop :=
  6 - span ≤ k.val ∧ ∀ i : Fin 6, k ≤ i → v.toNat / 10 ^ i.val % 10 = 0

end Sys2Proof.Machine
end

