-- ==== Sys2Proof/Certificates/Slice0/Obligations.lean ====
section
/-! DEFINITION. The statements for the provers, each a proposition that cites the rule of spec/ it formalises. -/

open Sys2Proof Sys2Proof.Machine

/-- R230: after power-on, whatever the devices hold, and after every reset, the block is in its reset state; a reset that
the host asserts after a command takes effect after that command. -/
def Obligations.ResetPutsBlockInResetState : Prop :=
  (∀ c : Chain,
    (State.powerOn c).link = .idle ∧ (State.powerOn c).csN = 1 ∧ (State.powerOn c).status = 0x00 ∧
    (State.powerOn c).sticky = ⟨false, false, false, false, false⟩ ∧
    (State.powerOn c).response = none ∧ (State.powerOn c).trace = []) ∧
  (∀ (s : State) (rest : List HostMove), s.host = .assertReset :: rest →
    ∃ t, step s = .next t ∧ t.link = .idle ∧ t.csN = 1 ∧ t.status = 0x00 ∧
      t.sticky = ⟨false, false, false, false, false⟩ ∧ t.response = none ∧
      (t.trace = [] ∨ t.trace = [.csHigh]) ∧ t.host = rest) ∧
  (∀ (s : State) (w : Command) (rest : List HostMove), s.host = .present w :: .assertReset :: rest →
    ∃ t, step s = .next t ∧ t.response ≠ none ∧ t.host = .assertReset :: rest)

/-- R231 (with R232 for the idle link): a reset with the link open is one CsHigh, which every device latches; with the
link
idle it is no event and the devices keep everything. -/
def Obligations.ResetWithOpenLinkLatchesDevices : Prop :=
  ∀ (s : State) (rest : List HostMove), s.host = .assertReset :: rest →
    ∃ t, step s = .next t ∧
      (s.link = .idle → t.trace = [] ∧ t.chain = s.chain) ∧
      (s.link = .acquired → t.trace = [.csHigh] ∧
        ∀ p, (t.chain.dev p).sr = (s.chain.dev p).sr ∧
          ∀ a, (t.chain.dev p).reg a =
            if a = wireAddr (s.chain.dev p).sr ∧ a ≠ 0 then lowByte (s.chain.dev p).sr else (s.chain.dev p).reg a)

/-- The model's choice at reset (log entry 1, DESIGN CHOICE): power-on with every device register zero, no move pending.
-/
def Obligations.ResetIsPowerOnWithZeroDevices : Prop :=
  State.reset = State.powerOn State.reset.chain ∧ State.reset.host = [] ∧
  ∀ p, (State.reset.chain.dev p).sr = 0 ∧ ∀ a, (State.reset.chain.dev p).reg a = 0

/-- R33, R75: a step takes the host's next word, and runs exactly the command it decodes to, or raises its decode error,
with
the ports of the step before cleared. -/
def Obligations.StepRunsDecodedCommand : Prop :=
  ∀ (s : State) (w : Command) (rest : List HostMove), s.host = .present w :: rest →
    (∀ i, decode w = .ok i → step s = exec i { s with response := none, trace := [], host := rest }) ∧
    (∀ e, decode w = .error e →
      step s = .next (raiseError e { s with response := none, trace := [], host := rest }))

/-- R233: with no word presented the block waits; link, STATUS and devices stay. That the wait is a step which clears the
ports is the model's choice (log entry 16, DESIGN CHOICE). -/
def Obligations.BlockWaitsForFirstWord : Prop :=
  ∀ s : State, s.host = [] → step s = .next { s with response := none, trace := [] }

/-- Every step ends, with at most 48 bus events (R248 says so; the spec marks it as derived from the event counts). -/
def Obligations.EveryStepAnswersWithin48Events : Prop :=
  ∀ s : State, ∃ t, step s = .next t ∧ t.trace.length ≤ 48

/-- R201, R203, R204, R205: a command word raises exactly the first failing check of the list, and an error changes
nothing
but its STATUS bit and the response; a word that passes every check responds OK and sets no sticky bit. -/
def Obligations.FirstFailingCheckIsTheOutcome : Prop :=
  ∀ (s : State) (w : Command) (rest : List HostMove), s.host = .present w :: rest →
    match commandChecks w s.link with
    | some e => step s = .next { s with
        sticky := s.sticky.set e, response := some ⟨errorStatus e, 0⟩, trace := [], host := rest }
    | none => ∃ t result, step s = .next t ∧ t.response = some ⟨0, result⟩ ∧ t.sticky = s.sticky ∧ t.host = rest

/-- R200: the codes 1 to 5, and each error sets the STATUS bit of its own number and no other. -/
def Obligations.ErrorCodeIsItsStatusBit : Prop :=
  errorStatus .illegalOp = 1 ∧ errorStatus .badSlot = 2 ∧ errorStatus .badOperand = 3 ∧
  errorStatus .linkBusy = 4 ∧ errorStatus .linkIdle = 5 ∧
  ∀ (s : State) (e : ErrorCode),
    ({ s with sticky := s.sticky.set e } : State).status = s.status ||| (1#8 <<< (errorStatus e).toNat)

/-- R25: the fields of STATUS, bit by bit, in every state. -/
def Obligations.StatusFieldsReadAsNamed : Prop :=
  ∀ s : State,
    (s.status.getLsbD 0 = true ↔ s.link = .acquired) ∧
    s.status.getLsbD 1 = s.sticky.illegal ∧ s.status.getLsbD 2 = s.sticky.slot ∧
    s.status.getLsbD 3 = s.sticky.operand ∧ s.status.getLsbD 4 = s.sticky.busy ∧
    s.status.getLsbD 5 = s.sticky.idle ∧ s.status.getLsbD 6 = false ∧ s.status.getLsbD 7 = false ∧
    (s.csN = 0 ↔ s.link = .acquired)

/-- R202: an error sets its sticky bit; no command clears one; a reset clears all; STAT reads every one of them. -/
def Obligations.OnlyResetClearsStickyBits : Prop :=
  (∀ (s : State) (w : Command) (rest : List HostMove), s.host = .present w :: rest →
    ∃ t, step s = .next t ∧ (∀ e, s.sticky.has e = true → t.sticky.has e = true) ∧
      (∀ e, commandChecks w s.link = some e → t.sticky.has e = true)) ∧
  (∀ (s : State) (rest : List HostMove), s.host = .assertReset :: rest →
    ∃ t, step s = .next t ∧ ∀ e, t.sticky.has e = false) ∧
  (∀ s : State, ∃ t result, exec .stat s = .next t ∧ t.response = some ⟨0, result⟩ ∧
    ∀ e, result.getLsbD (errorStatus e).toNat = s.sticky.has e)

/-- R70 to R74: decoding the word of a well-formed command gives the command back, at every operand value. -/
def Obligations.DecodeOfEncode : Prop :=
  ∀ i : Instr, i.wellFormed = true → decode (encode i) = .ok i

/-- R75: a word that decodes is the word of the command it decodes to, so each command has one word and each legal word
one
command. -/
def Obligations.EncodeOfDecode : Prop :=
  ∀ (w : Command) (i : Instr), decode w = .ok i → i.wellFormed = true ∧ encode i = w

/-- The worked encodings of R77, which the spec marks as derived from R70 and R72. -/
def Obligations.WorkedEncodingsDecode : Prop :=
  decode 0x400100000006 = .ok (.send .x (Config.regAddr .digit0) 0x06) ∧
  decode 0x440100000006 = .ok (.send .y (Config.regAddr .digit0) 0x06) ∧
  decode 0x480100000006 = .ok (.send .z (Config.regAddr .digit0) 0x06) ∧
  decode 0x580000000000 = .ok (.config .z) ∧
  decode 0x640300000083 = .ok (.setDigit .y 3 0x83) ∧
  decode 0x70000001E240 = .ok (.render 123456) ∧
  decode 0x80000001E240 = .ok (.showValue .x 123456) ∧
  decode 0x2000000000A5 = .ok (.xfer 0xA5) ∧
  decode 0x100000000000 = .ok .acquire ∧
  decode 0x300000000000 = .ok .release ∧
  decode 0x900000000000 = .ok .stat

/-- R75: the op field alone selects the command, the checks of R203 run in their order, and decoding is total. -/
def Obligations.DecodingFollowsTheChecks : Prop :=
  ∀ w : Command,
    (∀ e, decode w = .error e ↔ decodeChecks w = some e) ∧
    ((∃ i, decode w = .ok i) ↔ decodeChecks w = none) ∧
    (∀ i, decode w = .ok i → i.opcode.code = opField w)

/-- R81: LEGAL_REG is the fourteen addresses, and SEND to any other is BAD_OPERAND. -/
def Obligations.SendTakesOnlyLegalRegisters : Prop :=
  (∀ r : Byte, legalReg r = true ↔ r ∈ [0x00#8, 0x01#8, 0x02#8, 0x03#8, 0x04#8, 0x05#8, 0x06#8, 0x07#8,
    0x08#8, 0x09#8, 0x0A#8, 0x0B#8, 0x0C#8, 0x0F#8]) ∧
  (∀ w : Command, opField w = 0x4 → slotField w ≠ 3 → w &&& 0x0300FFFFFF00 = 0 →
    (legalReg (addrField w) = false → decode w = .error .badOperand) ∧
    (legalReg (addrField w) = true → ∃ sl, decode w = .ok (.send sl (addrField w) (byteField w))))

/-- R80: the register addresses. -/
def Obligations.RegisterAddressMap : Prop :=
  Config.regAddr .noOp = 0x00 ∧ Config.regAddr .digit0 = 0x01 ∧ Config.regAddr .digit1 = 0x02 ∧
  Config.regAddr .digit2 = 0x03 ∧ Config.regAddr .digit3 = 0x04 ∧ Config.regAddr .digit4 = 0x05 ∧
  Config.regAddr .digit5 = 0x06 ∧ Config.regAddr .digit6 = 0x07 ∧ Config.regAddr .digit7 = 0x08 ∧
  Config.regAddr .decode = 0x09 ∧ Config.regAddr .intensity = 0x0A ∧ Config.regAddr .scanLimit = 0x0B ∧
  Config.regAddr .shutdown = 0x0C ∧ Config.regAddr .test = 0x0F ∧
  ∀ p : BitVec 3, digitAddr p = 0x01 + p.zeroExtend 8

/-- R50, R120, R124: fillers before and after follow the chain position, and every frame is six bytes, as R120's table
writes
it out. -/
def Obligations.FrameLayoutBySlot : Prop :=
  ∀ (s : Slot) (r v : Byte),
    lead s = 2 * (3 - posNumber (pos s)) ∧ trail s = 2 * (posNumber (pos s) - 1) ∧
    frame s r v = tableFrame s r v ∧ (frame s r v).length = 6

/-- R100: ACQUIRE from an idle link emits CsLow, acquires the link, responds (OK, 0), and changes nothing else. -/
def Obligations.AcquireOpensCycle : Prop :=
  ∀ s : State, s.link = .idle →
    exec .acquire s = .next { s with link := .acquired, trace := s.trace ++ [.csLow], response := some ⟨0, 0⟩ }

/-- R53, R102, R103: XFER in an open cycle emits its byte, which every device shifts in, and changes no register. -/
def Obligations.XferShiftsOneByte : Prop :=
  ∀ (s : State) (b : Byte), s.link = .acquired →
    exec (.xfer b) s = .next { s with
      trace := s.trace ++ [.byte b]
      response := some ⟨0, 0⟩
      chain :=
        { dev1 := { s.chain.dev1 with sr := s.chain.dev1.sr.extractLsb' 0 8 ++ b }
          dev2 := { s.chain.dev2 with sr := s.chain.dev2.sr.extractLsb' 0 8 ++ s.chain.dev1.sr.extractLsb' 8 8 }
          dev3 := { s.chain.dev3 with sr := s.chain.dev3.sr.extractLsb' 0 8 ++ s.chain.dev2.sr.extractLsb' 8 8 } } }

/-- R55, R104: RELEASE in an open cycle emits CsHigh and frees the link; each device keeps its shift register and writes
the
one register it addresses, none when that is 0. -/
def Obligations.ReleaseLatchesEveryDevice : Prop :=
  ∀ s : State, s.link = .acquired →
    ∃ t, exec .release s = .next t ∧ t.link = .idle ∧ t.sticky = s.sticky ∧ t.host = s.host ∧
      t.trace = s.trace ++ [.csHigh] ∧ t.response = some ⟨0, 0⟩ ∧
      ∀ p, (t.chain.dev p).sr = (s.chain.dev p).sr ∧
        ∀ a, (t.chain.dev p).reg a =
          if a = wireAddr (s.chain.dev p).sr ∧ a ≠ 0 then lowByte (s.chain.dev p).sr else (s.chain.dev p).reg a

/-- The routing theorem, with SEND's trace and response (R121) and its frame: only the addressed register of the addressed
device changes, and none for NoOp. The spec marks the theorem, R123, as derived from R120, R55 and R59. -/
def Obligations.SendRoutesToItsSlot : Prop :=
  ∀ (s : State) (sl : Slot) (r v : Byte), legalReg r = true → s.link = .idle →
    ∃ t, exec (.send sl r v) s = .next t ∧ t.link = .idle ∧ t.sticky = s.sticky ∧ t.host = s.host ∧
      t.response = some ⟨0, 0⟩ ∧ t.trace = s.trace ++ cycleOf (tableFrame sl r v) ∧
      ∀ p, ((t.chain.dev p).sr = if p = pos sl then r ++ v else 0x0000) ∧
        ∀ a, (t.chain.dev p).reg a =
          if p = pos sl ∧ a = r.extractLsb' 0 4 ∧ a ≠ 0 then v else (s.chain.dev p).reg a

/-- R140 to R144: CONFIG sends the four frames in order and sets exactly the four registers of its slot's device. The
value
of Intensity is the free value of log entry 2: this holds for every value of it. -/
def Obligations.ConfigWritesFourSettings : Prop :=
  ∀ (s : State) (sl : Slot), s.link = .idle →
    ∃ t, exec (.config sl) s = .next t ∧ t.link = .idle ∧ t.sticky = s.sticky ∧ t.host = s.host ∧
      t.response = some ⟨0, 0⟩ ∧
      t.trace = s.trace ++ cycleOf (tableFrame sl 0x09 0xFF) ++ cycleOf (tableFrame sl 0x0B 0x05)
        ++ cycleOf (tableFrame sl 0x0A Config.cfgIntensity) ++ cycleOf (tableFrame sl 0x0C 0x01) ∧
      ∀ p, ((t.chain.dev p).sr = if p = pos sl then 0x0C01 else 0x0000) ∧
        ∀ a, (t.chain.dev p).reg a =
          if p = pos sl ∧ a = 0x9 then 0xFF
          else if p = pos sl ∧ a = 0xB then 0x05
          else if p = pos sl ∧ a = 0xA then Config.cfgIntensity
          else if p = pos sl ∧ a = 0xC then 0x01
          else (s.chain.dev p).reg a

/-- R145, R147: SETDIGIT sends one frame and writes its code, unchanged, to digit register `p`, address `p + 1`, for every
position 0 to 7. -/
def Obligations.SetDigitWritesItsDigit : Prop :=
  ∀ (s : State) (sl : Slot) (p : BitVec 3) (c : Byte), s.link = .idle →
    ∃ t, exec (.setDigit sl p c) s = .next t ∧ t.link = .idle ∧ t.sticky = s.sticky ∧ t.host = s.host ∧
      t.response = some ⟨0, 0⟩ ∧
      t.trace = s.trace ++ cycleOf (tableFrame sl (0x01 + p.zeroExtend 8) c) ∧
      ∀ q, ((t.chain.dev q).sr = if q = pos sl then (0x01 + p.zeroExtend 8) ++ c else 0x0000) ∧
        ∀ a, (t.chain.dev q).reg a =
          if q = pos sl ∧ a = 1 + p.zeroExtend 4 then c else (s.chain.dev q).reg a

/-- R150, R151: SHOW sends six frames, Digit0 first, writes the six codes to Digit0..Digit5 of its slot's device and
nothing
else, and responds with the codes. -/
def Obligations.ShowWritesSixDigits : Prop :=
  ∀ (s : State) (sl : Slot) (v : Value), s.link = .idle →
    ∃ t, exec (.showValue sl v) s = .next t ∧ t.link = .idle ∧ t.sticky = s.sticky ∧ t.host = s.host ∧
      t.response = some ⟨0, packCodes (renderValue v)⟩ ∧
      t.trace = s.trace ++ cycleOf (tableFrame sl 0x01 (renderValue v)[0]) ++ cycleOf (tableFrame sl 0x02 (renderValue v)[1])
        ++ cycleOf (tableFrame sl 0x03 (renderValue v)[2]) ++ cycleOf (tableFrame sl 0x04 (renderValue v)[3])
        ++ cycleOf (tableFrame sl 0x05 (renderValue v)[4]) ++ cycleOf (tableFrame sl 0x06 (renderValue v)[5]) ∧
      ∀ p, ((t.chain.dev p).sr = if p = pos sl then 0x06#8 ++ (renderValue v)[5] else 0x0000) ∧
        ∀ a, (t.chain.dev p).reg a =
          if p ≠ pos sl then (s.chain.dev p).reg a
          else if a = 0x1 then (renderValue v)[0]
          else if a = 0x2 then (renderValue v)[1]
          else if a = 0x3 then (renderValue v)[2]
          else if a = 0x4 then (renderValue v)[3]
          else if a = 0x5 then (renderValue v)[4]
          else if a = 0x6 then (renderValue v)[5]
          else (s.chain.dev p).reg a

/-- R78, R168, R170: RENDER, in either link state, responds with the six codes of its value, code `k` in bits 8k+7 to
8k, and
changes nothing else. -/
def Obligations.RenderRespondsWithCodes : Prop :=
  ∀ (s : State) (v : Value), ∃ result,
    exec (.render v) s = .next { s with response := some ⟨0, result⟩ } ∧
    ∀ k : Fin 6, result.extractLsb' (8 * k.val) 8 = (renderValue v)[k]

/-- R206: STAT, in either link state, responds with STATUS as it stands, bits above 7 zero, and changes nothing else. -/
def Obligations.StatRespondsWithStatus : Prop :=
  ∀ s : State, ∃ result,
    exec .stat s = .next { s with response := some ⟨0, result⟩ } ∧
    result.extractLsb' 0 8 = s.status ∧ result.extractLsb' 8 40 = 0 ∧
    (result.getLsbD 0 = true ↔ s.link = .acquired)

/-- R204: the link-state checks. The five commands that need an idle link answer LINK_BUSY while it is acquired, XFER and
RELEASE answer LINK_IDLE while it is idle, RENDER and STAT answer OK in either link state. -/
def Obligations.LinkStateChecks : Prop :=
  ∀ (i : Instr) (s : State), i.wellFormed = true →
    (i.opcode ∈ [.acquire, .send, .config, .setDigit, .showValue] → s.link = .acquired →
      exec i s = .next { s with sticky := { s.sticky with busy := true }, response := some ⟨4, 0⟩ }) ∧
    (i.opcode ∈ [.xfer, .release] → s.link = .idle →
      exec i s = .next { s with sticky := { s.sticky with idle := true }, response := some ⟨5, 0⟩ }) ∧
    (i.opcode ∈ [.render, .stat] →
      ∃ t result, exec i s = .next t ∧ t.response = some ⟨0, result⟩ ∧ t.sticky = s.sticky)

/-- The model's reading of an ill-formed SEND term, which no word decodes to (log entry 10, DEDUCED from R203's check
4): it
raises BAD_OPERAND. -/
def Obligations.IllFormedSendRaisesBadOperand : Prop :=
  ∀ (s : State) (sl : Slot) (r v : Byte), legalReg r = false →
    (∀ w, decode w ≠ .ok (.send sl r v)) ∧
    exec (.send sl r v) s = .next { s with sticky := { s.sticky with operand := true }, response := some ⟨3, 0⟩ }

/-- The frame of every command, in one: what `exec` leaves unchanged when it gives a next state. The host's moves; the
link,
but for ACQUIRE and RELEASE; the sticky bits named by other checks; every device register but those the command writes, in
every device; the shift registers, but for the commands that send a byte. -/
def Obligations.CommandFrame : Prop :=
  ∀ (i : Instr) (s t : State), exec i s = .next t →
    t.host = s.host ∧
    (i.opcode ≠ .acquire → i.opcode ≠ .release → t.link = s.link) ∧
    (t.sticky.illegal = s.sticky.illegal ∧ t.sticky.slot = s.sticky.slot) ∧
    (i.wellFormed = true → t.sticky.operand = s.sticky.operand) ∧
    (i.opcode ∈ [.xfer, .release, .render, .stat] → t.sticky.busy = s.sticky.busy) ∧
    (i.opcode ∉ [.xfer, .release] → t.sticky.idle = s.sticky.idle) ∧
    (i.opcode ∈ [.acquire, .release, .render, .stat] → ∀ p, (t.chain.dev p).sr = (s.chain.dev p).sr) ∧
    (∀ p a, a ∉ writtenRegs s.chain p i → (t.chain.dev p).reg a = (s.chain.dev p).reg a)

/-- R55: no step writes register 0 of a device. -/
def Obligations.NoStepWritesNoOpRegister : Prop :=
  ∀ (s t : State) (p : Position), step s = .next t → (t.chain.dev p).reg 0 = (s.chain.dev p).reg 0

/-- R41, R24: in every state, the events of a step come in legal order from the chip-select level the step begins at, and
leave it at the level the link state says. -/
def Obligations.EveryStepKeepsBusOrder : Prop :=
  ∀ s t : State, step s = .next t → busRun s.link t.trace = some t.link

/-- R41: the whole output of any number of steps from an idle link is a sequence of cycles, followed by one open cycle
exactly
when the link is left acquired. -/
def Obligations.BusOutputIsCycles : Prop :=
  ∀ (n : Nat) (s t : State), s.link = .idle → afterSteps n s = .next t →
    ∃ (cycles : List (List Byte)) (tail : Option (List Byte)),
      busOutput n s = cycles.flatMap cycleOf ++ openTail tail ∧ (tail.isSome = true ↔ t.link = .acquired)

/-- R53 to R55, R60, R232: the devices change only by the bus events of a step, in their order. -/
def Obligations.DevicesFollowTheBus : Prop :=
  ∀ s t : State, step s = .next t → t.chain = s.chain.drive t.trace

/-- R62: the bus is write-only. Nothing but the devices themselves depends on what the devices hold. -/
def Obligations.DevicesAreInvisibleToTheBlock : Prop :=
  ∀ (s t : State) (c : Chain), step s = .next t →
    ∃ d, step { s with chain := c } = .next { t with chain := d }

/-- R78, R200, R201, R247: the outputs of every step are well formed. -/
def Obligations.EveryStepLeavesOutputsOk : Prop :=
  ∀ s t : State, step s = .next t → OutputsOk t

/-- The outputs at power-on are well formed, whatever the devices hold. -/
def Obligations.OutputsOkAtPowerOn : Prop :=
  (∀ c : Chain, OutputsOk (State.powerOn c)) ∧ OutputsOk State.reset

/-- The number of bus events of each command, by its response (R247, which the spec marks as derived). -/
def Obligations.EventCountsAreFixed : Prop :=
  ∀ (i : Instr) (s : State), ∃ t r es, exec i s = .next t ∧ t.response = some r ∧ t.trace = s.trace ++ es ∧
    es.length = if r.status = 0 then eventCount i.opcode else 0

/-- R169: the renderer's loop is the closed form, for every decimal-point digit and blanking span, and the block's
renderer is
the one with digit 3 and span 2. -/
def Obligations.RenderLoopIsClosedForm : Prop :=
  (∀ (dp : Fin 6) (span : Nat) (v : Value), span ≤ 6 → ∀ k : Fin 6,
    (blankAt span v k → (renderWith dp span v)[k] = 0x0F ||| (if k = dp then 0x80 else 0)) ∧
    (¬ blankAt span v k →
      (renderWith dp span v)[k] = BitVec.ofNat 8 (v.toNat / 10 ^ k.val % 10) ||| (if k = dp then 0x80 else 0))) ∧
  ∀ v : Value, renderValue v = renderWith 3 2 v

/-- R164: which digits are blank. -/
def Obligations.LeadingZeroBlanking : Prop :=
  ∀ v : Value,
    ((renderValue v)[5] = 0x0F ↔ v.toNat / 10 ^ 5 % 10 = 0) ∧
    ((renderValue v)[4] = 0x0F ↔ v.toNat / 10 ^ 5 % 10 = 0 ∧ v.toNat / 10 ^ 4 % 10 = 0) ∧
    ((renderValue v)[5] ≠ 0x0F → (renderValue v)[5] = BitVec.ofNat 8 (v.toNat / 10 ^ 5 % 10)) ∧
    ((renderValue v)[4] ≠ 0x0F → (renderValue v)[4] = BitVec.ofNat 8 (v.toNat / 10 ^ 4 % 10)) ∧
    (renderValue v)[3] = 0x80 ||| BitVec.ofNat 8 (v.toNat / 10 ^ 3 % 10) ∧
    (renderValue v)[2] = BitVec.ofNat 8 (v.toNat / 10 ^ 2 % 10) ∧
    (renderValue v)[1] = BitVec.ofNat 8 (v.toNat / 10 % 10) ∧
    (renderValue v)[0] = BitVec.ofNat 8 (v.toNat % 10)

/-- R165: a value of a million or more renders as its remainder. -/
def Obligations.RenderDropsMillions : Prop :=
  ∀ v : Value, renderValue v = renderValue (BitVec.ofNat 32 (v.toNat % 1000000))

/-- The codes the renderer makes (R167, which the spec marks as derived from R163 and R164). -/
def Obligations.RenderCodeSet : Prop :=
  ∀ v : Value,
    (renderValue v)[0] ≤ 0x09 ∧ (renderValue v)[1] ≤ 0x09 ∧ (renderValue v)[2] ≤ 0x09 ∧
    0x80 ≤ (renderValue v)[3] ∧ (renderValue v)[3] ≤ 0x89 ∧
    ((renderValue v)[4] ≤ 0x09 ∨ (renderValue v)[4] = 0x0F) ∧
    ((renderValue v)[5] ≤ 0x09 ∨ (renderValue v)[5] = 0x0F)

/-- The number read before the point and the number read after it (R166, which the spec marks as derived). -/
def Obligations.RenderedCodesReadAsTheValue : Prop :=
  ∀ v : Value,
    100 * shownDigit (renderValue v)[5] + 10 * shownDigit (renderValue v)[4] + shownDigit (renderValue v)[3]
      = v.toNat % 1000000 / 1000 ∧
    100 * shownDigit (renderValue v)[2] + 10 * shownDigit (renderValue v)[1] + shownDigit (renderValue v)[0]
      = v.toNat % 1000000 % 1000

/-- Six bytes overwrite all three shift registers, whatever they held (R59, which the spec marks as derived from R53). -/
def Obligations.SixBytesFillTheChain : Prop :=
  ∀ (c : Chain) (f0 f1 f2 f3 f4 f5 : Byte),
    ((c.drive [.byte f0, .byte f1, .byte f2, .byte f3, .byte f4, .byte f5]).dev .third).sr = f0 ++ f1 ∧
    ((c.drive [.byte f0, .byte f1, .byte f2, .byte f3, .byte f4, .byte f5]).dev .second).sr = f2 ++ f3 ∧
    ((c.drive [.byte f0, .byte f1, .byte f2, .byte f3, .byte f4, .byte f5]).dev .first).sr = f4 ++ f5

/-- R241, which the spec marks as derived from R53 and R55: the shift registers after any number of bytes in a raw
cycle, fewer than six and an odd count included: the oldest
bytes are pushed out, and no register changes before the CsHigh. -/
def Obligations.RawCycleKeepsLastSixBytes : Prop :=
  ∀ (c : Chain) (bs : List Byte),
    chainBytes (c.drive (bs.map .byte)) = (chainBytes c ++ bs).drop bs.length ∧
    ∀ p a, ((c.drive (bs.map .byte)).dev p).reg a = (c.dev p).reg a

/-- R243, which the spec marks as derived from R55 and R123: an empty cycle makes every device latch again what its
shift register holds; after a SEND it changes nothing. -/
def Obligations.EmptyCycleLatchesAgain : Prop :=
  (∀ s : State, s.link = .idle →
    ∃ t, execAll [.acquire, .release] s = .next t ∧ t.trace = s.trace ++ [.csLow, .csHigh] ∧ t.link = .idle ∧
      ∀ p, (t.chain.dev p).sr = (s.chain.dev p).sr ∧
        ∀ a, (t.chain.dev p).reg a =
          if a = wireAddr (s.chain.dev p).sr ∧ a ≠ 0 then lowByte (s.chain.dev p).sr else (s.chain.dev p).reg a) ∧
  (∀ (s : State) (sl : Slot) (r v : Byte), legalReg r = true → s.link = .idle →
    ∃ t u, exec (.send sl r v) s = .next t ∧ execAll [.acquire, .release] t = .next u ∧ u.chain = t.chain)

/-- R48, which the spec marks as derived from R53 and R55: sending the same frame twice leaves the devices as sending it
once, and emits both frames. -/
def Obligations.RepeatedSendIsIdempotentOnDevices : Prop :=
  ∀ (s : State) (sl : Slot) (r v : Byte), legalReg r = true → s.link = .idle →
    ∃ t u, exec (.send sl r v) s = .next t ∧ exec (.send sl r v) t = .next u ∧ u.chain = t.chain ∧
      u.trace = t.trace ++ cycleOf (tableFrame sl r v)

/-- R83 and R107, which the spec marks as derived from R100 to R105 and R121: from an idle link, the eight raw commands
of RAWFRAME have exactly the effect of the SEND they spell out. -/
def Obligations.RawFrameEqualsSend : Prop :=
  ∀ (s : State) (sl : Slot) (g : Reg) (v : Byte), s.link = .idle →
    (expand (.rawFrame sl g v)).length = 8 ∧
    ∃ t, execAll (expand (.rawFrame sl g v)) s = .next t ∧ exec (.send sl (Config.regAddr g) v) s = .next t

/-- R83: the other pseudo-commands and their expansions, which are well formed. -/
def Obligations.PseudoCommandExpansions : Prop :=
  ∀ (s : Slot) (p : BitVec 3),
    expand (.blank s p) = [.setDigit s p 0x0F] ∧ expand (.testOff s) = [.send s 0x0F 0x00] ∧
    expand (.wake s) = [.send s 0x0C 0x01] ∧ expand (.sleep s) = [.send s 0x0C 0x00] ∧
    legalReg 0x0F = true ∧ legalReg 0x0C = true

/-- R153, which the spec marks as derived from R145, R150 and R170: SHOW has the same effect as RENDER and then six
SETDIGITs of its codes. -/
def Obligations.ShowIsRenderThenSetDigits : Prop :=
  ∀ (s : State) (sl : Slot) (v : Value), s.link = .idle →
    ∃ t u, exec (.showValue sl v) s = .next t ∧
      execAll [.render v, .setDigit sl 0 (renderValue v)[0], .setDigit sl 1 (renderValue v)[1],
        .setDigit sl 2 (renderValue v)[2], .setDigit sl 3 (renderValue v)[3],
        .setDigit sl 4 (renderValue v)[4], .setDigit sl 5 (renderValue v)[5]] s = .next u ∧
      u.chain = t.chain ∧ u.trace = t.trace ∧ u.link = t.link ∧ u.sticky = t.sticky

/-- R43 with the wiring of R51: eight bits on the data line, most significant first, shift the chain as the byte event
does (log entry 15, DEDUCED: one bit per clock). -/
def Obligations.BitSerialShiftIsByteShift : Prop :=
  ∀ (c : Chain) (b : Byte), c.shiftBits (serialBits b) = c.shift b

/-- R58, R140, R143: after CONFIG, on its slot's device, the Shutdown, Decode and ScanLimit conditions hold for the six
digits, and the lamp test and every digit register are as before. -/
def Obligations.ConfigSetsDisplayConditions : Prop :=
  ∀ (s : State) (sl : Slot), s.link = .idle →
    ∃ t, exec (.config sl) s = .next t ∧ (t.chain.dev (pos sl)).poweredOn = true ∧
      (t.chain.dev (pos sl)).lampTest = (s.chain.dev (pos sl)).lampTest ∧
      (∀ k : Fin 8, k.val ≤ 5 →
        (t.chain.dev (pos sl)).decodes k = true ∧ k.val ≤ (t.chain.dev (pos sl)).scanLimit.toNat) ∧
      ∀ k : Fin 8, (t.chain.dev (pos sl)).digitReg k = (s.chain.dev (pos sl)).digitReg k

/-- R58, R150: SHOW on a device that is powered on, not in lamp test, decoding and scanning digit `k`, makes that digit
show its code, for the six digits. -/
def Obligations.ShowIsVisibleOnConfiguredDevice : Prop :=
  ∀ (s : State) (sl : Slot) (v : Value) (k : Fin 6), s.link = .idle →
    (s.chain.dev (pos sl)).poweredOn = true → (s.chain.dev (pos sl)).lampTest = false →
    (s.chain.dev (pos sl)).decodes ⟨k.val, by omega⟩ = true →
    k.val ≤ (s.chain.dev (pos sl)).scanLimit.toNat →
    ∃ t, exec (.showValue sl v) s = .next t ∧
      (t.chain.dev (pos sl)).displays ⟨k.val, by omega⟩ = .glyph (font (renderValue v)[k])

/-- R57: the font on the codes the renderer makes: the decimal digits, the blank and the point; and the bits it ignores. It is
the font that R57 gives, not what a display shows of an open code (log entry 11). -/
def Obligations.FontOfRenderedCodes : Prop :=
  (∀ d : Fin 10, font (BitVec.ofNat 8 d.val) = ⟨.digit d, false⟩ ∧
    font (0x80 ||| BitVec.ofNat 8 d.val) = ⟨.digit d, true⟩) ∧
  font 0x0F = ⟨.blank, false⟩ ∧
  ∀ c d : Byte, c &&& 0x8F = d &&& 0x8F → font c = font d

/-- R58, R161 to R166, R235: the whole path. On a configured device that is not in lamp test, SHOW displays the value:
three digits with leading zeros of the first two blank, the point, three digits. -/
def Obligations.ShownValueReadsOnTheDisplay : Prop :=
  ∀ (s : State) (sl : Slot) (v : Value), s.link = .idle → (s.chain.dev (pos sl)).lampTest = false →
    ∃ t u, exec (.config sl) s = .next t ∧ exec (.showValue sl v) t = .next u ∧
      ∀ k : Fin 8, k.val ≤ 5 →
        ∃ g, (u.chain.dev (pos sl)).displays k = .glyph g ∧ (g.point = true ↔ k.val = 3) ∧
          (g.character = .blank ↔ 4 ≤ k.val ∧ v.toNat / 10 ^ k.val % 10 = 0 ∧ v.toNat / 10 ^ 5 % 10 = 0) ∧
          (g.character ≠ .blank →
            ∃ d : Fin 10, g.character = .digit d ∧ d.val = v.toNat / 10 ^ k.val % 10)

/-- R56, R121: a SEND that clears Shutdown bit 0 makes every digit of its slot's display dark when lamp test is off; no other
register of the device changes. -/
def Obligations.ShutdownDarkensTheDisplay : Prop :=
  ∀ (s : State) (sl : Slot) (v : Byte), s.link = .idle → v.getLsbD 0 = false →
    (s.chain.dev (pos sl)).lampTest = false →
    ∃ t, exec (.send sl (Config.regAddr .shutdown) v) s = .next t ∧
      (∀ k : Fin 8, (t.chain.dev (pos sl)).displays k = .dark) ∧
      ∀ a : BitVec 4, a ≠ 0xC → (t.chain.dev (pos sl)).reg a = (s.chain.dev (pos sl)).reg a

/-- R56, R121: a SEND that sets Test bit 0 lights every segment of every digit of its slot's display when the device is
powered on; no other register of the device changes. That it lights the digits beyond the scan limit too is the model's reading
of R56 (log entry 18, DEDUCED). Powered off is left out: that view is the free value of log entry 18. -/
def Obligations.LampTestLightsEverySegment : Prop :=
  ∀ (s : State) (sl : Slot) (v : Byte), s.link = .idle → v.getLsbD 0 = true →
    (s.chain.dev (pos sl)).poweredOn = true →
    ∃ t, exec (.send sl (Config.regAddr .test) v) s = .next t ∧
      (∀ k : Fin 8, (t.chain.dev (pos sl)).displays k = .allSegments) ∧
      ∀ a : BitVec 4, a ≠ 0xF → (t.chain.dev (pos sl)).reg a = (s.chain.dev (pos sl)).reg a

/-- R216, R56, R83: register values survive a shutdown and are shown again. A digit that shows its code shows it again after
SLEEP and WAKE, and after a lamp test and TESTOFF. For a code that U9 leaves open, that its appearance is the same before and
after is the model's choice (log entry 11, DESIGN CHOICE: one constant picture for each such code). -/
def Obligations.DisplayReturnsAfterSleepAndLampTest : Prop :=
  ∀ (s : State) (sl : Slot) (k : Fin 8), s.link = .idle →
    (s.chain.dev (pos sl)).poweredOn = true → (s.chain.dev (pos sl)).lampTest = false →
    (s.chain.dev (pos sl)).decodes k = true → k.val ≤ (s.chain.dev (pos sl)).scanLimit.toNat →
    (∃ t u, execAll (expand (.sleep sl)) s = .next t ∧ (t.chain.dev (pos sl)).displays k = .dark ∧
      execAll (expand (.wake sl)) t = .next u ∧
      (u.chain.dev (pos sl)).displays k = appearance ((s.chain.dev (pos sl)).digitReg k)) ∧
    (∃ t u, exec (.send sl (Config.regAddr .test) 0x01) s = .next t ∧
      (t.chain.dev (pos sl)).displays k = .allSegments ∧
      execAll (expand (.testOff sl)) t = .next u ∧
      (u.chain.dev (pos sl)).displays k = appearance ((s.chain.dev (pos sl)).digitReg k))

/-- R56, R104: registers 0xD and 0xE have no function. A raw cycle that latches one of them, or a NoOp, changes nothing a
display shows. Where what it shows is a free value, that it stays the same is the model's choice (log entries 11 and 18, DESIGN
CHOICE: one constant picture for the code, or for the registers that have a function). -/
def Obligations.RegistersWithoutFunctionShowNothing : Prop :=
  ∀ (s : State) (p : Position), s.link = .acquired → wireAddr (s.chain.dev p).sr ∈ [0x0#4, 0xD#4, 0xE#4] →
    ∃ t, exec .release s = .next t ∧
      ∀ k : Fin 8, (t.chain.dev p).displays k = (s.chain.dev p).displays k

/-- R145, R141 and conflict C3: SETDIGIT writes Digit6 and Digit7 too, and the scan limit of CONFIG does not show them, in
normal operation: whatever code is written, the digit is not shown, before and after. -/
def Obligations.ConfiguredScanLimitHidesTopDigits : Prop :=
  ∀ (s : State) (sl : Slot) (p : BitVec 3) (c : Byte), s.link = .idle → (s.chain.dev (pos sl)).lampTest = false → 6 ≤ p →
    ∃ t u, exec (.config sl) s = .next t ∧ exec (.setDigit sl p c) t = .next u ∧
      (u.chain.dev (pos sl)).digitReg p.toFin = c ∧
      (t.chain.dev (pos sl)).displays p.toFin = .notShown ∧ (u.chain.dev (pos sl)).displays p.toFin = .notShown

/-- R145, R57, R58: SETDIGIT on a device in normal operation that decodes and scans the digit makes it show the code as R57
reads it, for every code but those U9 leaves open (0x0A to 0x0E, and a bit of 6:4 set); so 0x8A to 0x8E show their character
with the point lit. -/
def Obligations.SetDigitShowsItsCode : Prop :=
  ∀ (s : State) (sl : Slot) (p : BitVec 3) (c : Byte), s.link = .idle →
    (s.chain.dev (pos sl)).poweredOn = true → (s.chain.dev (pos sl)).lampTest = false →
    (s.chain.dev (pos sl)).decodes p.toFin = true → p.toNat ≤ (s.chain.dev (pos sl)).scanLimit.toNat →
    c &&& 0x70 = 0 → ¬ (0x0A ≤ c ∧ c ≤ 0x0E) →
    ∃ t, exec (.setDigit sl p c) s = .next t ∧ (t.chain.dev (pos sl)).displays p.toFin = .glyph (font c)
end

