-- ==== Sys2Proof/Laws/Decode.lean ====
section
/-! SUPPORT. The fields of an encoded word, and what the op and slot fields select. -/

namespace Sys2Proof

/-- The bits of a format H word, field by field (R70). -/
theorem getLsbD_formatH (op : BitVec 4) (slot : BitVec 2) (addr : Byte) (data : Value) (i : Nat) :
    (formatH op slot addr data).getLsbD i =
      if i < 32 then data.getLsbD i
      else if i < 40 then addr.getLsbD (i - 32)
      else if i < 42 then false
      else if i < 44 then slot.getLsbD (i - 42)
      else op.getLsbD (i - 44) := by
  have h : (formatH op slot addr data).getLsbD i = (op ++ slot ++ 0#2 ++ addr ++ data).getLsbD i := rfl
  rw [h]
  simp only [BitVec.getLsbD_append, BitVec.getLsbD_zero]
  grind

@[simp] theorem opField_formatH (op : BitVec 4) (slot : BitVec 2) (addr : Byte) (data : Value) :
    opField (formatH op slot addr data) = op := by
  apply BitVec.eq_of_getLsbD_eq
  intro i hi
  simp [opField, getLsbD_formatH, hi]
  grind

@[simp] theorem slotField_formatH (op : BitVec 4) (slot : BitVec 2) (addr : Byte) (data : Value) :
    slotField (formatH op slot addr data) = slot := by
  apply BitVec.eq_of_getLsbD_eq
  intro i hi
  simp [slotField, getLsbD_formatH, hi]
  grind

@[simp] theorem addrField_formatH (op : BitVec 4) (slot : BitVec 2) (addr : Byte) (data : Value) :
    addrField (formatH op slot addr data) = addr := by
  apply BitVec.eq_of_getLsbD_eq
  intro i hi
  simp [addrField, getLsbD_formatH, hi]
  grind

@[simp] theorem dataField_formatH (op : BitVec 4) (slot : BitVec 2) (addr : Byte) (data : Value) :
    dataField (formatH op slot addr data) = data := by
  apply BitVec.eq_of_getLsbD_eq
  intro i hi
  simp [dataField, getLsbD_formatH, hi]

@[simp] theorem byteField_formatH (op : BitVec 4) (slot : BitVec 2) (addr : Byte) (b : Byte) :
    byteField (formatH op slot addr (b.zeroExtend 32)) = b := by
  apply BitVec.eq_of_getLsbD_eq
  intro i hi
  simp [byteField, getLsbD_formatH, hi]
  grind

@[simp] theorem positionField_formatH (op : BitVec 4) (slot : BitVec 2) (p : BitVec 3) (data : Value) :
    positionField (formatH op slot (p.zeroExtend 8) data) = p := by
  apply BitVec.eq_of_getLsbD_eq
  intro i hi
  simp [positionField, getLsbD_formatH, hi]
  grind

/-- A word with a zero reserved field is made of its other fields (R70). -/
theorem formatH_fields {w : Command} (h : rsvField w = 0) :
    formatH (opField w) (slotField w) (addrField w) (dataField w) = w := by
  apply BitVec.eq_of_getLsbD_eq
  intro i hi
  have hr : ∀ j, (rsvField w).getLsbD j = false := by simp [h]
  have h0 := hr 0
  have h1 := hr 1
  simp only [rsvField, BitVec.getLsbD_extractLsb'] at h0 h1
  simp only [getLsbD_formatH, opField, slotField, addrField, dataField, BitVec.getLsbD_extractLsb']
  have : i < 40 ∨ i = 40 ∨ i = 41 ∨ 42 ≤ i := by omega
  rcases this with h | rfl | rfl | h
  · grind
  · simpa using h0.symm
  · simpa using h1.symm
  · grind

/-- Fields of a masked word are masked fields. -/
theorem fields_and (w m : Command) :
    slotField (w &&& m) = slotField w &&& slotField m ∧ rsvField (w &&& m) = rsvField w &&& rsvField m ∧
    addrField (w &&& m) = addrField w &&& addrField m ∧ dataField (w &&& m) = dataField w &&& dataField m := by
  refine ⟨?_, ?_, ?_, ?_⟩ <;> apply BitVec.eq_of_getLsbD_eq <;> intro i hi <;>
    simp [slotField, rsvField, addrField, dataField, hi]

/-- Masking a format H word masks its fields. -/
theorem formatH_and (op : BitVec 4) (slot : BitVec 2) (addr : Byte) (data : Value) (m : Command) :
    formatH op slot addr data &&& m =
      formatH (op &&& opField m) (slot &&& slotField m) (addr &&& addrField m) (data &&& dataField m) := by
  apply BitVec.eq_of_getLsbD_eq
  intro i hi
  simp only [BitVec.getLsbD_and, getLsbD_formatH, opField, slotField, addrField, dataField,
    BitVec.getLsbD_extractLsb']
  grind

/-- A byte operand has no bit in data[31:8] (R74). -/
theorem zeroExtend_and_upper (b : Byte) : b.zeroExtend 32 &&& 0xFFFFFF00#32 = 0 := by
  revert b; decide

/-- A SETDIGIT position has no bit in addr[7:3] (R74). -/
theorem zeroExtend_position_and_upper (p : BitVec 3) : p.zeroExtend 8 &&& 0xF8#8 = 0 := by
  revert p; decide

/-- Every command's op code selects it (R72). -/
@[simp] theorem opcodeOf_code (o : Opcode) : opcodeOf o.code = some o := by
  cases o <;> decide

/-- Every slot's field names it (R73). -/
@[simp] theorem slotOf_slotCode (s : Slot) : slotOf (slotCode s) = some s := by
  cases s <;> decide

end Sys2Proof
end

