-- ==== Sys2Proof/Laws/Devices.lean ====
section
/-! SUPPORT. What the device operations do: bytes of a wire word, register reads after writes, the latch, the shift, and the
chain driven by a list of events. -/

namespace Sys2Proof.Machine

/-- The bits of a pair: the low byte below, the high byte above. -/
theorem getLsbD_bytePair (a b : Byte) (i : Nat) :
    (bytePair a b).getLsbD i = if i < 8 then b.getLsbD i else a.getLsbD (i - 8) :=
  BitVec.getLsbD_append

@[simp] theorem highByte_bytePair (a b : Byte) : highByte (bytePair a b) = a := by
  apply BitVec.eq_of_getLsbD_eq
  intro i hi
  simp [highByte, getLsbD_bytePair, hi]

@[simp] theorem lowByte_bytePair (a b : Byte) : lowByte (bytePair a b) = b := by
  apply BitVec.eq_of_getLsbD_eq
  intro i hi
  simp [lowByte, getLsbD_bytePair, hi]

theorem bytePair_high_low (w : WireWord) : bytePair (highByte w) (lowByte w) = w := by
  apply BitVec.eq_of_getLsbD_eq
  intro i hi
  simp only [getLsbD_bytePair, highByte, lowByte, BitVec.getLsbD_extractLsb']
  split
  · simp_all
  · simp_all
    grind

/-- A device decodes the low four bits of the register byte (R79). -/
@[simp] theorem wireAddr_bytePair (a b : Byte) : wireAddr (bytePair a b) = a.extractLsb' 0 4 := by
  apply BitVec.eq_of_getLsbD_eq
  intro i hi
  simp [wireAddr, getLsbD_bytePair, hi]

@[simp] theorem Device.setReg_sr (d : Device) (a : BitVec 4) (v : Byte) : (d.setReg a v).sr = d.sr := rfl

/-- A register reads as written, and every other as before. -/
@[simp] theorem Device.reg_setReg (d : Device) (a b : BitVec 4) (v : Byte) :
    (d.setReg a v).reg b = if b = a then v else d.reg b := by
  simp [Device.setReg, Device.reg, Vector.getElem_set, BitVec.toNat_inj, eq_comm]

/-- Devices with the same shift register and the same registers are the same. -/
theorem Device.ext_reg {d e : Device} (hs : d.sr = e.sr) (hr : ∀ a, d.reg a = e.reg a) : d = e := by
  obtain ⟨ds, dr⟩ := d
  obtain ⟨es, er⟩ := e
  have h : dr = er := by
    apply Vector.ext
    intro i hi
    have := hr (BitVec.ofNat 4 i)
    simpa [Device.reg, Nat.mod_eq_of_lt hi] using this
  simp_all

@[simp] theorem Device.latch_sr (d : Device) : d.latch.sr = d.sr := by
  unfold Device.latch; split <;> rfl

/-- What a rising select does to every register of a device (R55). -/
@[simp] theorem Device.reg_latch (d : Device) (a : BitVec 4) :
    d.latch.reg a = if a = wireAddr d.sr ∧ a ≠ 0 then lowByte d.sr else d.reg a := by
  unfold Device.latch
  split <;> simp_all
  grind

@[simp] theorem Chain.dev_latch (c : Chain) (p : Position) : c.latch.dev p = (c.dev p).latch := by
  cases p <;> rfl

@[simp] theorem Chain.reg_shift (c : Chain) (b : Byte) (p : Position) (a : BitVec 4) :
    ((c.shift b).dev p).reg a = (c.dev p).reg a := by
  cases p <;> rfl

/-- Chains with the same devices at every position are the same. -/
theorem Chain.ext_dev {c d : Chain} (h : ∀ p, c.dev p = d.dev p) : c = d := by
  obtain ⟨a, b, e⟩ := c
  obtain ⟨a', b', e'⟩ := d
  have h1 := h .first
  have h2 := h .second
  have h3 := h .third
  simp_all [Chain.dev]

@[simp] theorem Chain.drive_nil (c : Chain) : c.drive [] = c := rfl

@[simp] theorem Chain.drive_cons (c : Chain) (e : BusEvent) (es : List BusEvent) :
    c.drive (e :: es) = (c.react e).drive es := rfl

@[simp] theorem Chain.drive_append (c : Chain) (es fs : List BusEvent) :
    c.drive (es ++ fs) = (c.drive es).drive fs := by
  simp [Chain.drive]

@[simp] theorem Chain.react_csLow (c : Chain) : c.react .csLow = c := rfl

@[simp] theorem Chain.react_byte (c : Chain) (b : Byte) : c.react (.byte b) = c.shift b := rfl

@[simp] theorem Chain.react_csHigh (c : Chain) : c.react .csHigh = c.latch := rfl

/-- In normal operation a decoded and scanned digit shows its code (R58). -/
theorem Device.displays_of_ready {d : Device} {k : Fin 8} (hp : d.poweredOn = true) (ht : d.lampTest = false)
    (hd : d.decodes k = true) (hs : k.val ≤ d.scanLimit.toNat) :
    d.displays k = appearance (d.digitReg k) := by
  simp [Device.displays, Device.normalView, Device.scans, hp, ht, hd, hs]

/-- In normal operation a digit beyond the scan limit is not shown, whatever its register holds (R56, R145). -/
theorem Device.displays_of_unscanned {d : Device} {k : Fin 8} (hp : d.poweredOn = true) (ht : d.lampTest = false)
    (hs : d.scanLimit.toNat < k.val) : d.displays k = .notShown := by
  simp [Device.displays, Device.normalView, Device.scans, hp, ht, hs]

/-- A code that U9 does not leave open appears as the font reads it (R57). -/
theorem appearance_of_not_open {c : Byte} (h : openCode c = false) : appearance c = .glyph (font c) := by
  simp [appearance, h]

/-- In shutdown, without lamp test, every digit is dark (R56). -/
theorem Device.displays_of_shutdown {d : Device} (k : Fin 8) (hp : d.poweredOn = false) (ht : d.lampTest = false) :
    d.displays k = .dark := by
  simp [Device.displays, hp, ht]

/-- Under lamp test, powered on, every segment of every digit is lit (R56). -/
theorem Device.displays_of_lampTest {d : Device} (k : Fin 8) (hp : d.poweredOn = true) (ht : d.lampTest = true) :
    d.displays k = .allSegments := by
  simp [Device.displays, hp, ht]

/-- The view depends on the registers that have a function only (R56). -/
theorem Device.displays_congr {d e : Device} (h : ∀ a, a ≠ 0x0 → a ≠ 0xD → a ≠ 0xE → d.reg a = e.reg a) (k : Fin 8) :
    d.displays k = e.displays k := by
  have hk : d.digitReg k = e.digitReg k := by
    have : ∀ k : Fin 8, BitVec.ofNat 4 (k + 1) ≠ 0x0 ∧ BitVec.ofNat 4 (k + 1) ≠ 0xD ∧ BitVec.ofNat 4 (k + 1) ≠ 0xE := by
      decide
    exact h _ (this k).1 (this k).2.1 (this k).2.2
  have hv : d.displayRegs = e.displayRegs := by
    refine List.map_congr_left fun a ha => h a ?_ ?_ ?_ <;> rintro rfl <;> simp at ha
  have h9 := h 0x9 (by decide) (by decide) (by decide)
  have hB := h 0xB (by decide) (by decide) (by decide)
  have hC := h 0xC (by decide) (by decide) (by decide)
  have hF := h 0xF (by decide) (by decide) (by decide)
  simp only [Device.displays, Device.normalView, Device.openView, Device.poweredOn, Device.lampTest, Device.scans,
    Device.decodes, Device.scanLimit, hk, hv, h9, hB, hC, hF]
  rfl

end Sys2Proof.Machine
end

