-- ==== Sys2Proof/Laws/State.lean ====
section
/-! SUPPORT. One lemma per field per update of the state, so that no proof unfolds a record update. -/

namespace Sys2Proof.Machine

@[simp] theorem State.setLink_link (l : Link) (s : State) : (s.setLink l).link = l := rfl
@[simp] theorem State.setLink_sticky (l : Link) (s : State) : (s.setLink l).sticky = s.sticky := rfl
@[simp] theorem State.setLink_chain (l : Link) (s : State) : (s.setLink l).chain = s.chain := rfl
@[simp] theorem State.setLink_response (l : Link) (s : State) : (s.setLink l).response = s.response := rfl
@[simp] theorem State.setLink_trace (l : Link) (s : State) : (s.setLink l).trace = s.trace := rfl
@[simp] theorem State.setLink_host (l : Link) (s : State) : (s.setLink l).host = s.host := rfl

@[simp] theorem State.setSticky_link (f : Sticky) (s : State) : (s.setSticky f).link = s.link := rfl
@[simp] theorem State.setSticky_sticky (f : Sticky) (s : State) : (s.setSticky f).sticky = f := rfl
@[simp] theorem State.setSticky_chain (f : Sticky) (s : State) : (s.setSticky f).chain = s.chain := rfl
@[simp] theorem State.setSticky_response (f : Sticky) (s : State) : (s.setSticky f).response = s.response := rfl
@[simp] theorem State.setSticky_trace (f : Sticky) (s : State) : (s.setSticky f).trace = s.trace := rfl
@[simp] theorem State.setSticky_host (f : Sticky) (s : State) : (s.setSticky f).host = s.host := rfl

@[simp] theorem State.setResponse_link (r : Option Response) (s : State) : (s.setResponse r).link = s.link := rfl
@[simp] theorem State.setResponse_sticky (r : Option Response) (s : State) : (s.setResponse r).sticky = s.sticky := rfl
@[simp] theorem State.setResponse_chain (r : Option Response) (s : State) : (s.setResponse r).chain = s.chain := rfl
@[simp] theorem State.setResponse_response (r : Option Response) (s : State) : (s.setResponse r).response = r := rfl
@[simp] theorem State.setResponse_trace (r : Option Response) (s : State) : (s.setResponse r).trace = s.trace := rfl
@[simp] theorem State.setResponse_host (r : Option Response) (s : State) : (s.setResponse r).host = s.host := rfl

@[simp] theorem State.setTrace_link (t : List BusEvent) (s : State) : (s.setTrace t).link = s.link := rfl
@[simp] theorem State.setTrace_sticky (t : List BusEvent) (s : State) : (s.setTrace t).sticky = s.sticky := rfl
@[simp] theorem State.setTrace_chain (t : List BusEvent) (s : State) : (s.setTrace t).chain = s.chain := rfl
@[simp] theorem State.setTrace_response (t : List BusEvent) (s : State) : (s.setTrace t).response = s.response := rfl
@[simp] theorem State.setTrace_trace (t : List BusEvent) (s : State) : (s.setTrace t).trace = t := rfl
@[simp] theorem State.setTrace_host (t : List BusEvent) (s : State) : (s.setTrace t).host = s.host := rfl

@[simp] theorem State.setHost_link (h : List HostMove) (s : State) : (s.setHost h).link = s.link := rfl
@[simp] theorem State.setHost_sticky (h : List HostMove) (s : State) : (s.setHost h).sticky = s.sticky := rfl
@[simp] theorem State.setHost_chain (h : List HostMove) (s : State) : (s.setHost h).chain = s.chain := rfl
@[simp] theorem State.setHost_response (h : List HostMove) (s : State) : (s.setHost h).response = s.response := rfl
@[simp] theorem State.setHost_trace (h : List HostMove) (s : State) : (s.setHost h).trace = s.trace := rfl
@[simp] theorem State.setHost_host (h : List HostMove) (s : State) : (s.setHost h).host = h := rfl

@[simp] theorem State.emit_link (e : BusEvent) (s : State) : (s.emit e).link = s.link := rfl
@[simp] theorem State.emit_sticky (e : BusEvent) (s : State) : (s.emit e).sticky = s.sticky := rfl
@[simp] theorem State.emit_chain (e : BusEvent) (s : State) : (s.emit e).chain = s.chain.react e := rfl
@[simp] theorem State.emit_response (e : BusEvent) (s : State) : (s.emit e).response = s.response := rfl
@[simp] theorem State.emit_trace (e : BusEvent) (s : State) : (s.emit e).trace = s.trace ++ [e] := rfl
@[simp] theorem State.emit_host (e : BusEvent) (s : State) : (s.emit e).host = s.host := rfl

@[simp] theorem State.powerOn_link (c : Chain) : (State.powerOn c).link = .idle := rfl
@[simp] theorem State.powerOn_sticky (c : Chain) : (State.powerOn c).sticky = .clear := rfl
@[simp] theorem State.powerOn_chain (c : Chain) : (State.powerOn c).chain = c := rfl
@[simp] theorem State.powerOn_response (c : Chain) : (State.powerOn c).response = none := rfl
@[simp] theorem State.powerOn_trace (c : Chain) : (State.powerOn c).trace = [] := rfl
@[simp] theorem State.powerOn_host (c : Chain) : (State.powerOn c).host = [] := rfl

@[simp] theorem clearPorts_link (s : State) : (clearPorts s).link = s.link := rfl
@[simp] theorem clearPorts_sticky (s : State) : (clearPorts s).sticky = s.sticky := rfl
@[simp] theorem clearPorts_chain (s : State) : (clearPorts s).chain = s.chain := rfl
@[simp] theorem clearPorts_response (s : State) : (clearPorts s).response = none := rfl
@[simp] theorem clearPorts_trace (s : State) : (clearPorts s).trace = [] := rfl
@[simp] theorem clearPorts_host (s : State) : (clearPorts s).host = s.host := rfl

@[simp] theorem respond_link (result : BitVec 48) (s : State) : (respond result s).link = s.link := rfl
@[simp] theorem respond_sticky (result : BitVec 48) (s : State) : (respond result s).sticky = s.sticky := rfl
@[simp] theorem respond_chain (result : BitVec 48) (s : State) : (respond result s).chain = s.chain := rfl
@[simp] theorem respond_response (result : BitVec 48) (s : State) : (respond result s).response = some ⟨okStatus, result⟩ := rfl
@[simp] theorem respond_trace (result : BitVec 48) (s : State) : (respond result s).trace = s.trace := rfl
@[simp] theorem respond_host (result : BitVec 48) (s : State) : (respond result s).host = s.host := rfl

@[simp] theorem raiseError_link (e : ErrorCode) (s : State) : (raiseError e s).link = s.link := rfl
@[simp] theorem raiseError_sticky (e : ErrorCode) (s : State) : (raiseError e s).sticky = s.sticky.set e := rfl
@[simp] theorem raiseError_chain (e : ErrorCode) (s : State) : (raiseError e s).chain = s.chain := rfl
@[simp] theorem raiseError_response (e : ErrorCode) (s : State) : (raiseError e s).response = some ⟨errorStatus e, 0⟩ := rfl
@[simp] theorem raiseError_trace (e : ErrorCode) (s : State) : (raiseError e s).trace = s.trace := rfl
@[simp] theorem raiseError_host (e : ErrorCode) (s : State) : (raiseError e s).host = s.host := rfl

/-- A state is its six fields. -/
theorem State.ext_fields {s t : State} (hl : s.link = t.link) (hk : s.sticky = t.sticky) (hc : s.chain = t.chain)
    (hr : s.response = t.response) (ht : s.trace = t.trace) (hh : s.host = t.host) : s = t := by
  cases s; cases t; simp_all

end Sys2Proof.Machine
end

