-- ==== Sys2Proof/Laws/Ops.lean ====
section
/-! SUPPORT. Everything each shared operation can do, said once: a state given as an update of the state before. -/

namespace Sys2Proof.Machine

/-- Emitting bytes lengthens the trace and drives the chain; nothing else moves. -/
theorem emitBytes_eq (bs : List Byte) (s : State) :
    s.emitBytes bs = { s with trace := s.trace ++ bs.map .byte, chain := s.chain.drive (bs.map .byte) } := by
  induction bs generalizing s with
  | nil => simp [State.emitBytes]
  | cons b bs ih =>
    have h : s.emitBytes (b :: bs) = (s.emit (.byte b)).emitBytes bs := rfl
    rw [h, ih]
    simp [State.emit]

theorem openCycle_eq (s : State) :
    openCycle s = { s with link := .acquired, trace := s.trace ++ [.csLow] } := rfl

theorem closeCycle_eq (s : State) :
    closeCycle s = { s with link := .idle, trace := s.trace ++ [.csHigh], chain := s.chain.latch } := rfl

/-- A frame is one chip-select cycle around its six bytes, and leaves the link idle (R139). -/
theorem sendFrame_eq (sl : Slot) (r v : Byte) (s : State) :
    sendFrame sl r v s = { s with
      link := .idle
      trace := s.trace ++ cycleOf (frame sl r v)
      chain := s.chain.drive (cycleOf (frame sl r v)) } := by
  simp [sendFrame, emitBytes_eq, openCycle_eq, closeCycle_eq, cycleOf]

/-- Several frames to one slot: the cycles one after another. -/
theorem sendFrames_eq (sl : Slot) (cmds : List (Byte × Byte)) (s : State) (h : s.link = .idle) :
    sendFrames sl cmds s = { s with
      trace := s.trace ++ cmds.flatMap fun c => cycleOf (frame sl c.1 c.2)
      chain := s.chain.drive (cmds.flatMap fun c => cycleOf (frame sl c.1 c.2)) } := by
  induction cmds generalizing s with
  | nil => simp [sendFrames]
  | cons c cs ih =>
    have h' : sendFrames sl (c :: cs) s = sendFrames sl cs (sendFrame sl c.1 c.2 s) := rfl
    rw [h', ih _ (by rw [sendFrame_eq])]
    simp [sendFrame_eq, h]

/-- The frame of a slot, written out (R120). -/
theorem frame_eq_tableFrame (sl : Slot) (r v : Byte) : frame sl r v = tableFrame sl r v := by
  cases sl <;> rfl

theorem whenIdle_of_idle {s : State} (h : s.link = .idle) (body : State → State) : whenIdle s body = body s := by
  simp [whenIdle, h]

theorem whenIdle_of_acquired {s : State} (h : s.link = .acquired) (body : State → State) :
    whenIdle s body = raiseError .linkBusy s := by
  simp [whenIdle, h]

theorem whenAcquired_of_acquired {s : State} (h : s.link = .acquired) (body : State → State) :
    whenAcquired s body = body s := by
  simp [whenAcquired, h]

theorem whenAcquired_of_idle {s : State} (h : s.link = .idle) (body : State → State) :
    whenAcquired s body = raiseError .linkIdle s := by
  simp [whenAcquired, h]

/-- The reset input with the link idle: sticky bits and response cleared, no event (R230, R231). -/
theorem applyReset_of_idle {s : State} (h : s.link = .idle) :
    applyReset s = { s with sticky := .clear, response := none } := by
  simp [applyReset, h, State.setSticky, State.setResponse]

/-- The reset input with the link open: one CsHigh, which the devices latch (R231). -/
theorem applyReset_of_acquired {s : State} (h : s.link = .acquired) :
    applyReset s = { s with
      link := .idle, sticky := .clear, response := none
      trace := s.trace ++ [.csHigh], chain := s.chain.latch } := by
  simp [applyReset, h, State.setSticky, State.setResponse, closeCycle_eq]

theorem takeMove_nil {s : State} (h : s.host = []) : takeMove s = (none, clearPorts s) := by
  simp [takeMove, h]

theorem takeMove_cons {s : State} {m : HostMove} {rest : List HostMove} (h : s.host = m :: rest) :
    takeMove s = (some m, { s with response := none, trace := [], host := rest }) := by
  simp [takeMove, h, clearPorts, State.setHost, State.setResponse, State.setTrace]

end Sys2Proof.Machine
end

