-- ==== Sys2Proof/Laws/Exec.lean ====
section
/-! SUPPORT. Everything a frame, a command and a step can do, said once: a frame's effect on every device; a command either
raises one error or succeeds with a list of bus events that drives the devices; a step takes one move. -/

namespace Sys2Proof.Machine

theorem bytePair_zero : bytePair 0#8 0#8 = 0#16 := by decide

/-- After the six bytes of a frame, each device holds its own wire word, whatever it held before (R59, R120). -/
theorem sr_drive_frame (c : Chain) (sl : Slot) (r v : Byte) (p : Position) :
    ((c.drive (cycleOf (frame sl r v))).dev p).sr = if p = pos sl then bytePair r v else 0 := by
  cases sl <;> cases p <;>
    simp [frame_eq_tableFrame, cycleOf, tableFrame, pos, Chain.dev, Chain.latch] <;>
    simp [Chain.shift, bytePair_zero, bytePair_high_low]

/-- After a frame's CsHigh, one register of one device has changed at most (R123). -/
theorem reg_drive_frame (c : Chain) (sl : Slot) (r v : Byte) (p : Position) (a : BitVec 4) :
    ((c.drive (cycleOf (frame sl r v))).dev p).reg a =
      if p = pos sl ∧ a = wireAddr (bytePair r v) ∧ a ≠ 0 then v else (c.dev p).reg a := by
  cases sl <;> cases p <;>
    simp [frame_eq_tableFrame, cycleOf, tableFrame, pos, Chain.dev, Chain.shift, Chain.latch] <;> rfl

@[simp] theorem busRun_nil (l : Link) : busRun l [] = some l := rfl

@[simp] theorem busRun_cons (l : Link) (e : BusEvent) (es : List BusEvent) :
    busRun l (e :: es) = (busStep l e).bind fun m => busRun m es := rfl

theorem busRun_append (l : Link) (es fs : List BusEvent) :
    busRun l (es ++ fs) = (busRun l es).bind fun m => busRun m fs := by
  simp [busRun, List.foldlM_append]

/-- Bytes keep an open cycle open. -/
theorem busRun_bytes (bs : List Byte) : busRun .acquired (bs.map .byte) = some .acquired := by
  induction bs with
  | nil => rfl
  | cons b bs ih => simpa [busStep] using ih

/-- A cycle leads from chip select high to chip select high. -/
theorem busRun_cycle (bs : List Byte) : busRun .idle (cycleOf bs) = some .idle := by
  simp [cycleOf, busStep, busRun_append, busRun_bytes]

/-- Cycles one after another lead from chip select high to chip select high. -/
theorem busRun_cycles {α : Type} (f : α → List Byte) (xs : List α) :
    busRun .idle (xs.flatMap fun x => cycleOf (f x)) = some .idle := by
  induction xs with
  | nil => rfl
  | cons x xs ih => simp [busRun_append, busRun_cycle, ih]

theorem length_cycleOf_frame (sl : Slot) (r v : Byte) : (cycleOf (frame sl r v)).length = 8 := by
  cases sl <;> rfl

theorem length_cycles (sl : Slot) (cmds : List (Byte × Byte)) :
    (cmds.flatMap fun c => cycleOf (frame sl c.1 c.2)).length = 8 * cmds.length := by
  induction cmds with
  | nil => rfl
  | cons c cs ih => simp [length_cycleOf_frame, ih]; omega

/-- The success of a command: it emits `es`, which drives the devices, ends with the link at `l` and responds OK. -/
def commandSuccess (es : List BusEvent) (l : Link) (result : BitVec 48) (s : State) : State :=
  { s with
    link := l, trace := s.trace ++ es, chain := s.chain.drive es, response := some ⟨okStatus, result⟩ }

/-- The events a command emits when it succeeds. -/
def successEvents : Instr → List BusEvent
  | .acquire => [.csLow]
  | .xfer b => [.byte b]
  | .release => [.csHigh]
  | .send sl r v => cycleOf (frame sl r v)
  | .config sl => configWrites.flatMap fun c => cycleOf (frame sl c.1 c.2)
  | .setDigit sl p c => cycleOf (frame sl (digitAddr p) c)
  | .render _ => []
  | .showValue sl v => (showWrites (renderValue v)).flatMap fun c => cycleOf (frame sl c.1 c.2)
  | .stat => []

/-- The result a command responds with when it succeeds. -/
def successResult (s : State) : Instr → BitVec 48
  | .acquire => 0
  | .xfer _ => 0
  | .release => 0
  | .send _ _ _ => 0
  | .config _ => 0
  | .setDigit _ _ _ => 0
  | .render v => packCodes (renderValue v)
  | .showValue _ v => packCodes (renderValue v)
  | .stat => s.status.zeroExtend 48

/-- The link state a command leaves when it succeeds. -/
def successLink (l : Link) : Instr → Link
  | .acquire => .acquired
  | .release => .idle
  | .xfer _ => l
  | .send _ _ _ => l
  | .config _ => l
  | .setDigit _ _ _ => l
  | .render _ => l
  | .showValue _ _ => l
  | .stat => l

/-- The error a command raises in a link state, none if it succeeds (R203's check 4, R204). -/
def instrError (l : Link) : Instr → Option ErrorCode
  | .acquire => if l = .acquired then some .linkBusy else none
  | .xfer _ => if l = .idle then some .linkIdle else none
  | .release => if l = .idle then some .linkIdle else none
  | .send _ r _ => if legalReg r = false then some .badOperand else if l = .acquired then some .linkBusy else none
  | .config _ => if l = .acquired then some .linkBusy else none
  | .setDigit _ _ _ => if l = .acquired then some .linkBusy else none
  | .render _ => none
  | .showValue _ _ => if l = .acquired then some .linkBusy else none
  | .stat => none

/-- Everything a command can do: raise its error, or succeed with its events. -/
theorem exec_eq (i : Instr) (s : State) :
    exec i s = .next (match instrError s.link i with
      | some e => raiseError e s
      | none => commandSuccess (successEvents i) (successLink s.link i) (successResult s i) s) := by
  have hr : ∀ (v : BitVec 48) (t : State), respond v t = { t with response := some ⟨okStatus, v⟩ } := fun _ _ => rfl
  cases hl : s.link <;> cases i with
  | send sl r v =>
    cases hg : legalReg r <;>
      simp [exec, execSend, instrError, hl, hg, whenIdle, hr, sendFrame_eq, commandSuccess, successEvents, successLink,
        successResult]
  | config sl =>
    simp [exec, execConfig, instrError, hl, whenIdle, hr, sendFrames_eq, commandSuccess, successEvents, successLink, successResult]
  | showValue sl v =>
    simp [exec, execShowValue, instrError, hl, whenIdle, hr, sendFrames_eq, commandSuccess, successEvents, successLink, successResult]
  | setDigit sl p c =>
    simp [exec, execSetDigit, instrError, hl, whenIdle, hr, sendFrame_eq, commandSuccess, successEvents, successLink, successResult]
  | acquire =>
    simp [exec, execAcquire, instrError, hl, whenIdle, hr, openCycle_eq, commandSuccess, successEvents, successLink, successResult]
  | xfer b =>
    simp [exec, execXfer, instrError, hl, whenAcquired, hr, State.emit, commandSuccess, successEvents, successLink, successResult]
  | release =>
    simp [exec, execRelease, instrError, hl, whenAcquired, hr, closeCycle_eq, commandSuccess, successEvents, successLink,
      successResult]
  | render v => simp [exec, execRender, instrError, hl, hr, commandSuccess, successEvents, successLink, successResult]
  | stat => simp [exec, execStat, instrError, hl, hr, commandSuccess, successEvents, successLink, successResult]

/-- The events of a success come in legal order and lead to the link state it leaves. -/
theorem busRun_successEvents {i : Instr} {l : Link} (h : instrError l i = none) :
    busRun l (successEvents i) = some (successLink l i) := by
  cases l <;> cases i <;>
    simp_all [instrError, successEvents, successLink, busRun_cycle, busRun_cycles, busStep]
  split at h <;> cases h

/-- Everything a step can do: wait, reset, raise a decode error, or run a command. -/
theorem step_eq (s : State) :
    step s = match s.host with
      | [] => .next (clearPorts s)
      | .assertReset :: rest => .next (applyReset ((clearPorts s).setHost rest))
      | .present w :: rest =>
        match decode w with
        | .ok i => exec i ((clearPorts s).setHost rest)
        | .error e => .next (raiseError e ((clearPorts s).setHost rest)) := by
  unfold step takeMove
  rcases s.host with _ | ⟨m, rest⟩
  · rfl
  · cases m <;> rfl

end Sys2Proof.Machine
end

