-- ==== Sys2Proof/Laws/PerInstr.lean ====
section
/-! SUPPORT. Per command: the encoded word carries the op code of R72 and has the command's must-be-zero bits clear (R74). -/

namespace Sys2Proof.Laws

/-- The op field of the encoded word is the command's op code, and no must-be-zero bit is set. -/
def OpAndMask.Statement (i : Instr) : Prop :=
  opField (encode i) = i.opcode.code ∧ encode i &&& i.opcode.mbzMask = 0

theorem OpAndMask.acquire : OpAndMask.Statement .acquire := by
  constructor <;> decide

theorem OpAndMask.xfer (b : Byte) : OpAndMask.Statement (.xfer b) := by
  refine ⟨by simp [encode, Instr.opcode, Opcode.code], ?_⟩
  have h : dataField Opcode.xfer.mbzMask = 0xFFFFFF00#32 := by decide
  simp only [encode, Instr.opcode, formatH_and, h, zeroExtend_and_upper]
  decide

theorem OpAndMask.release : OpAndMask.Statement .release := by
  constructor <;> decide

theorem OpAndMask.send (s : Slot) (r v : Byte) : OpAndMask.Statement (.send s r v) := by
  refine ⟨by simp [encode, Instr.opcode, Opcode.code], ?_⟩
  have h : dataField Opcode.send.mbzMask = 0xFFFFFF00#32 := by decide
  have ha : addrField Opcode.send.mbzMask = 0 := by decide
  simp only [encode, Instr.opcode, formatH_and, h, ha, zeroExtend_and_upper]
  cases s <;> simp <;> decide

theorem OpAndMask.config (s : Slot) : OpAndMask.Statement (.config s) := by
  cases s <;> constructor <;> decide

theorem OpAndMask.setDigit (s : Slot) (p : BitVec 3) (c : Byte) : OpAndMask.Statement (.setDigit s p c) := by
  refine ⟨by simp [encode, Instr.opcode, Opcode.code], ?_⟩
  have h : dataField Opcode.setDigit.mbzMask = 0xFFFFFF00#32 := by decide
  have ha : addrField Opcode.setDigit.mbzMask = 0xF8#8 := by decide
  simp only [encode, Instr.opcode, formatH_and, h, ha, zeroExtend_and_upper, zeroExtend_position_and_upper]
  cases s <;> decide

theorem OpAndMask.render (v : Value) : OpAndMask.Statement (.render v) := by
  refine ⟨by simp [encode, Instr.opcode, Opcode.code], ?_⟩
  have h : dataField Opcode.render.mbzMask = 0 := by decide
  simp only [encode, Instr.opcode, formatH_and, h]
  simp
  decide

theorem OpAndMask.showValue (s : Slot) (v : Value) : OpAndMask.Statement (.showValue s v) := by
  refine ⟨by simp [encode, Instr.opcode, Opcode.code], ?_⟩
  have h : dataField Opcode.showValue.mbzMask = 0 := by decide
  simp only [encode, Instr.opcode, formatH_and, h]
  cases s <;> simp <;> decide

theorem OpAndMask.stat : OpAndMask.Statement .stat := by
  constructor <;> decide

end Sys2Proof.Laws
end

