-- ==== Sys2Proof/Tests/Slice0.lean ====
section
/-! SUPPORT. The modeller's own tests. Expected values are those of spec/95_test_vectors.md (each test names its rows), of the
examples in the rules, or bit patterns written out from R70 to R74. The last part meets the hypotheses of each statement. -/

namespace Sys2Proof.Tests

open Sys2Proof Sys2Proof.Machine

/-! Helpers: small states and what a command or a word does in one. -/

/-- Three devices holding the given shift registers, every register 0xEE. -/
def chainOf (a b c : WireWord) : Chain :=
  ⟨⟨a, Vector.replicate 16 0xEE⟩, ⟨b, Vector.replicate 16 0xEE⟩, ⟨c, Vector.replicate 16 0xEE⟩⟩

/-- A state with the link idle, no sticky bit set. -/
def idleState : State := .powerOn (chainOf 0x1111 0x2222 0x3333)

/-- A state with the link acquired, no sticky bit set. -/
def openState : State := { idleState with link := .acquired }

/-- Three devices ready to show digits: Decode 0xFF, Intensity 8, ScanLimit 5, Shutdown 1, Test 0. -/
def readyDevice : Device := ⟨0, #v[0, 0, 0, 0, 0, 0, 0, 0, 0, 0xFF, 0x08, 0x05, 0x01, 0, 0, 0x00]⟩

/-- The link idle, the devices ready. -/
def readyState : State := .powerOn ⟨readyDevice, readyDevice, readyDevice⟩

/-- The next state of a command, `s` itself where there is none. -/
def after (i : Instr) (s : State) : State :=
  match exec i s with
  | .next t => t
  | .fault _ => s
  | .refused _ => s

/-- The next state of a step, `s` itself where there is none. -/
def afterStep (s : State) : State :=
  match step s with
  | .next t => t
  | .fault _ => s
  | .refused _ => s

/-- The numbers of a response: status and result. -/
def answer (s : State) : Option (Nat × Nat) := s.response.map fun r => (r.status.toNat, r.result.toNat)

/-- The error a word decodes to, if it is one. -/
def errorOf (w : Command) : Option ErrorCode :=
  match decode w with
  | .ok _ => none
  | .error e => some e

/-- What a word does from a link state: the answer, how many events, the link and STATUS afterwards. -/
def run (w : Command) (s : State) : Option (Nat × Nat) × List BusEvent × Link × Nat :=
  let t := afterStep (presentFirst w s)
  (answer t, t.trace, t.link, t.status.toNat)

/-- A device's registers at the given addresses. -/
def regsAt (d : Device) (as : List (BitVec 4)) : List Nat := as.map fun a => (d.reg a).toNat

/-- The result of RENDER for a value. -/
def renderResult (v : Nat) : Nat := (packCodes (renderValue (BitVec.ofNat 32 v))).toNat

/-! Well-formedness: the one check refuses its ill-formed terms (R81). -/

theorem test_wellFormed_refuses_0D : Instr.wellFormed (.send .x 0x0D 0) = false := by decide
theorem test_wellFormed_refuses_0E_10_FF :
    (Instr.wellFormed (.send .y 0x0E 0), Instr.wellFormed (.send .z 0x10 0), Instr.wellFormed (.send .x 0xFF 0))
      = (false, false, false) := by decide
theorem test_wellFormed_takes_00_0C_0F :
    (Instr.wellFormed (.send .y 0x00 0), Instr.wellFormed (.send .z 0x0C 0), Instr.wellFormed (.send .x 0x0F 0))
      = (true, true, true) := by decide

/-! Decoding, from bit patterns written out field by field: op, slot, rsv, addr, data (R70 to R74). -/

theorem test_decode_acquire :
    decode (0b0001#4 ++ 0b00#2 ++ 0b00#2 ++ 0b00000000#8 ++ 0x00000000#32) = .ok .acquire := by decide
theorem test_decode_xfer :
    decode (0b0010#4 ++ 0b00#2 ++ 0b00#2 ++ 0b00000000#8 ++ 0b00000000000000000000000010100101#32)
      = .ok (.xfer 0xA5) := by decide
theorem test_decode_release :
    decode (0b0011#4 ++ 0b00#2 ++ 0b00#2 ++ 0b00000000#8 ++ 0x00000000#32) = .ok .release := by decide
theorem test_decode_send :
    decode (0b0100#4 ++ 0b10#2 ++ 0b00#2 ++ 0b00001111#8 ++ 0b00000000000000000000000000000001#32)
      = .ok (.send .z 0x0F 0x01) := by decide
theorem test_decode_config :
    decode (0b0101#4 ++ 0b01#2 ++ 0b00#2 ++ 0b00000000#8 ++ 0x00000000#32) = .ok (.config .y) := by decide
theorem test_decode_setDigit :
    decode (0b0110#4 ++ 0b01#2 ++ 0b00#2 ++ 0b00000111#8 ++ 0b00000000000000000000000010000011#32)
      = .ok (.setDigit .y 7 0x83) := by decide
theorem test_decode_render :
    decode (0b0111#4 ++ 0b00#2 ++ 0b00#2 ++ 0b00000000#8 ++ 0b10000000000000000000000000000001#32)
      = .ok (.render 0x80000001) := by decide
theorem test_decode_showValue :
    decode (0b1000#4 ++ 0b10#2 ++ 0b00#2 ++ 0b00000000#8 ++ 0b11111111111111111111111111111111#32)
      = .ok (.showValue .z 0xFFFFFFFF) := by decide
theorem test_decode_stat :
    decode (0b1001#4 ++ 0b00#2 ++ 0b00#2 ++ 0b00000000#8 ++ 0x00000000#32) = .ok .stat := by decide

/-- R77's words, encoded. -/
theorem test_encode_worked_words :
    [encode (.send .x 0x01 0x06), encode (.send .y 0x01 0x06), encode (.send .z 0x01 0x06), encode (.config .z),
      encode (.setDigit .y 3 0x83), encode (.render 123456), encode (.showValue .x 123456), encode (.xfer 0xA5)]
    = [0x400100000006, 0x440100000006, 0x480100000006, 0x580000000000, 0x640300000083, 0x70000001E240,
      0x80000001E240, 0x2000000000A5] := by decide

/-- E1, E2, E3, E30. -/
theorem test_decode_illegal_op :
    [errorOf 0x000000000000, errorOf 0xA00000000000, errorOf 0xFFFFFFFFFFFF, errorOf 0x040100000000]
      = List.replicate 4 (some .illegalOp) := by decide

/-- E4 to E7, E10. -/
theorem test_decode_bad_slot :
    [errorOf 0x4C0100000006, errorOf 0x5C0000000000, errorOf 0x6C0000000000, errorOf 0x8C0000000000,
      errorOf 0x4C00FFFFFF00] = List.replicate 5 (some .badSlot) := by decide

/-- E8, E9, E11, E12, E19, E21 to E29. -/
theorem test_decode_must_be_zero :
    [errorOf 0x1C0000000000, errorOf 0x7C0000000000, errorOf 0x410100000000, errorOf 0x400100000100,
      errorOf 0x640800000000, errorOf 0x600000000100, errorOf 0x500100000000, errorOf 0x500000000001,
      errorOf 0x800100000000, errorOf 0x700100000000, errorOf 0x200000000100, errorOf 0x100000000001,
      errorOf 0x300000000001, errorOf 0x900000000001] = List.replicate 14 (some .badOperand) := by decide

/-- E13 to E18. -/
theorem test_decode_send_register :
    [errorOf 0x400D00000000, errorOf 0x400E00000000, errorOf 0x401000000000, errorOf 0x40FF00000000,
      errorOf 0x400F00000000, errorOf 0x400000000000]
      = [some .badOperand, some .badOperand, some .badOperand, some .badOperand, none, none] := by decide

/-- The table's word of a row, through the host's two entry points. -/
theorem test_tableWord_setDigit : decodeTableWord 48 0x640700000000 = some (.setDigit .y 7 0) := by decide
theorem test_withFetchWord_runs_first :
    afterStep (State.reset.withFetchWord 48 0x2000000000A5) = after (.xfer 0xA5) State.reset := by decide

/-! The link commands. -/

/-- K1, K2. -/
theorem test_acquire :
    run 0x100000000000 idleState = (some (0, 0), [.csLow], .acquired, 0x01) ∧
    run 0x100000000000 openState = (some (4, 0), [], .acquired, 0x11) := by decide

/-- K3, K6. -/
theorem test_xfer :
    run 0x2000000000A5 openState = (some (0, 0), [.byte 0xA5], .acquired, 0x01) ∧
    run 0x2000000000A5 idleState = (some (5, 0), [], .idle, 0x20) := by decide

/-- K7, K8. -/
theorem test_release :
    run 0x300000000000 openState = (some (0, 0), [.csHigh], .idle, 0x00) ∧
    run 0x300000000000 idleState = (some (5, 0), [], .idle, 0x20) := by decide

/-- E27: check 3 comes before check 5. -/
theorem test_operand_before_busy :
    run 0x100000000001 openState = (some (3, 0), [], .acquired, 0x09) := by decide

/-- K9 to K12. -/
theorem test_composite_commands_busy :
    [0x400100000006#48, 0x500000000000#48, 0x600000000000#48, 0x800000000000#48].map (fun w => run w openState)
      = List.replicate 4 (some (4, 0), [], .acquired, 0x11) := by decide

/-- M1: two bytes into the chain, then the latch. -/
theorem test_short_cycle_shifts_and_latches :
    let t := after .release (after (.xfer 0x01) (after (.xfer 0x0C) (after .acquire idleState)))
    (t.chain.dev1.sr, t.chain.dev2.sr, t.chain.dev3.sr) = (0x0C01, 0x1111, 0x2222) ∧
    (regsAt t.chain.dev1 [0xC, 0x1], regsAt t.chain.dev2 [0x1, 0xC], regsAt t.chain.dev3 [0x2, 0x1])
      = ([0x01, 0xEE], [0x11, 0xEE], [0x22, 0xEE]) := by decide

/-- M2: an odd number of bytes. -/
theorem test_odd_cycle_misaligns :
    let c := (chainOf 0x1111 0x2222 0x3333).drive (cycleOf [0x0C, 0x01, 0x00])
    (c.dev1.sr, c.dev2.sr, c.dev3.sr) = (0x0100, 0x110C, 0x2211) ∧
    ((c.dev1.reg 0x1).toNat, (c.dev2.reg 0x1).toNat, (c.dev3.reg 0x2).toNat) = (0x00, 0x0C, 0x11) := by decide

/-- M3: more than six bytes. -/
theorem test_long_cycle_keeps_last_six :
    let c := (chainOf 0x1111 0x2222 0x3333).drive (cycleOf [0x11, 0x22, 0x33, 0x44, 0x55, 0x66, 0x01, 0x07])
    (c.dev1.sr, c.dev2.sr, c.dev3.sr) = (0x0107, 0x5566, 0x3344) := by decide

/-- M4: an empty cycle latches again. -/
theorem test_empty_cycle_latches :
    let c := (chainOf 0x1111 0x2222 0x3333).drive (cycleOf [])
    (c.dev1.sr, c.dev2.sr, c.dev3.sr) = (0x1111, 0x2222, 0x3333) ∧
    (regsAt c.dev1 [1, 2, 3], regsAt c.dev2 [1, 2, 3], regsAt c.dev3 [1, 2, 3])
      = ([0x11, 0xEE, 0xEE], [0xEE, 0x22, 0xEE], [0xEE, 0xEE, 0x33]) := by decide

/-! The router and the display controller. -/

/-- T2. -/
theorem test_send_trace :
    run 0x440100000006 idleState =
      (some (0, 0), [.csLow, .byte 0x00, .byte 0x00, .byte 0x01, .byte 0x06, .byte 0x00, .byte 0x00, .csHigh],
        .idle, 0x00) := by decide

/-- T9 and T11: the value lands on one device, a NoOp on none. -/
theorem test_send_routes :
    let t := after (.send .y 0x0A 0x03) idleState
    let u := after (.send .z 0x00 0x55) idleState
    (t.chain.dev1.sr, t.chain.dev2.sr, t.chain.dev3.sr) = (0x0000, 0x0A03, 0x0000) ∧
    (regsAt t.chain.dev1 [0xA, 0x1], regsAt t.chain.dev2 [0xA, 0x1], regsAt t.chain.dev3 [0xA, 0x1])
      = ([0xEE, 0xEE], [0x03, 0xEE], [0xEE, 0xEE]) ∧
    u.chain.dev3 = ⟨0x0055, Vector.replicate 16 0xEE⟩ := by decide

/-- DC2, for every intensity. -/
theorem test_config_trace :
    (after (.config .y) idleState).trace =
      cycleOf [0x00, 0x00, 0x09, 0xFF, 0x00, 0x00] ++ cycleOf [0x00, 0x00, 0x0B, 0x05, 0x00, 0x00]
        ++ cycleOf [0x00, 0x00, 0x0A, Config.cfgIntensity, 0x00, 0x00]
        ++ cycleOf [0x00, 0x00, 0x0C, 0x01, 0x00, 0x00] := rfl

/-- R140, R143: the four registers, and not Test nor a digit, for every intensity. -/
theorem test_config_registers :
    let d := (after (.config .z) idleState).chain.dev .third
    (d.reg 0x9, d.reg 0xA, d.reg 0xB, d.reg 0xC, d.reg 0xF, d.reg 0x1)
      = (0xFF, Config.cfgIntensity, 0x05, 0x01, 0xEE, 0xEE) := by
  have h : after (.config .z) idleState
      = commandSuccess (successEvents (.config .z)) .idle 0 idleState := by
    unfold after
    rw [exec_eq]
    rfl
  simp [h, commandSuccess, successEvents, configWrites, reg_drive_frame, Config.regAddr, Config.cfgDecode,
    Config.cfgScanLimit, Config.cfgShutdown, pos]
  decide

/-- DC4. -/
theorem test_setDigit_trace :
    (after (.setDigit .y 3 0x83) idleState).trace = cycleOf [0x00, 0x00, 0x04, 0x83, 0x00, 0x00] := by decide

/-- DC5: position 7 is register 8. -/
theorem test_setDigit_top_position :
    regsAt (after (.setDigit .x 7 0x0F) idleState).chain.dev1 [0x7, 0x8, 0x9] = [0xEE, 0x0F, 0xEE] := by decide

/-- DC9. -/
theorem test_showValue_top :
    let t := after (.showValue .z 0xFFFFFFFF) idleState
    answer t = some (0, 0x090687020905) ∧
    t.trace = cycleOf [0x01, 0x05, 0, 0, 0, 0] ++ cycleOf [0x02, 0x09, 0, 0, 0, 0] ++ cycleOf [0x03, 0x02, 0, 0, 0, 0]
      ++ cycleOf [0x04, 0x87, 0, 0, 0, 0] ++ cycleOf [0x05, 0x06, 0, 0, 0, 0] ++ cycleOf [0x06, 0x09, 0, 0, 0, 0] := by
  decide

/-- DC8: Y's digits, and its Digit6, and no other device. -/
theorem test_showValue_registers :
    let t := after (.showValue .y 5) idleState
    regsAt t.chain.dev2 [1, 2, 3, 4, 5, 6, 7] = [0x05, 0x00, 0x00, 0x80, 0x0F, 0x0F, 0xEE] ∧
    regsAt t.chain.dev1 [1, 2, 3, 4, 5, 6, 7] = List.replicate 7 0xEE := by decide +kernel

/-! The renderer: RN1 to RN23, and K13. -/

theorem test_render_small :
    [0, 5, 10, 123, 999, 1000, 1050, 9999].map renderResult =
      [0x0F0F80000000, 0x0F0F80000005, 0x0F0F80000100, 0x0F0F80010203, 0x0F0F80090909, 0x0F0F81000000,
        0x0F0F81000500, 0x0F0F89090909] := by decide

theorem test_render_large :
    [10000, 10500, 50000, 100000, 100001, 123456, 999999, 1000000, 1234567, 9000001].map renderResult =
      [0x0F0180000000, 0x0F0180050000, 0x0F0580000000, 0x010080000000, 0x010080000001, 0x010283040506,
        0x090989090909, 0x0F0F80000000, 0x020384050607, 0x0F0F80000001] := by decide

theorem test_render_unsigned :
    [0x7FFFFFFF, 0x80000000, 0xFFFFFFFF, 0xFFFFFFFB, 0xFFFFFC18].map renderResult =
      [0x040883060407, 0x040883060408, 0x090687020905, 0x090687020901, 0x090686020906] := by decide

theorem test_render_in_open_cycle :
    run 0x70000000007B openState = (some (0, 0x0F0F80010203), [], .acquired, 0x01) := by decide

/-- R169's note: a blanking span that reaches the point gives 0x8F. -/
theorem test_render_blanked_point : (renderWith 3 3 0)[3] = 0x8F := by decide

/-! STATUS, reset, and the programs' corner steps. -/

/-- K14. -/
theorem test_stat_open : run 0x900000000000 openState = (some (0, 1), [], .acquired, 0x01) := by decide

/-- X5: three sticky bits, read twice. -/
theorem test_stat_reads_sticky :
    let s := raiseError .badOperand (raiseError .badSlot (raiseError .illegalOp idleState))
    answer (after .stat s) = some (0, 0x0E) ∧ answer (after .stat (after .stat s)) = some (0, 0x0E) := by
  decide

/-- Z1. -/
theorem test_reset_idle :
    let s : State := { idleState with sticky := ⟨false, true, true, true, true⟩, host := [.assertReset] }
    s.status = 0x3C ∧ (afterStep s).trace = [] ∧ (afterStep s).status = 0x00 ∧
      (afterStep s).chain = s.chain := by decide

/-- Z2. -/
theorem test_reset_open :
    let s : State := { openState with chain := chainOf 0x0C01 0x1111 0x2222, host := [.assertReset] }
    let t := afterStep s
    (t.trace, t.link, t.status) = ([.csHigh], .idle, 0x00) ∧
    ((t.chain.dev1.reg 0xC).toNat, (t.chain.dev2.reg 0x1).toNat, (t.chain.dev3.reg 0x2).toNat)
      = (0x01, 0x11, 0x22) := by decide

/-- R57 and R58: the digit of R145's example, and the blank. -/
theorem test_font : (font 0x83, font 0x0F, font 0x7A) = (⟨.digit 3, true⟩, ⟨.blank, false⟩, ⟨.minus, false⟩) := by decide

/-- U9: where the appearance is open, and at the codes beside it. -/
theorem test_openCode :
    [openCode 0x09, openCode 0x0A, openCode 0x0E, openCode 0x0F, openCode 0x10, openCode 0x70, openCode 0x80,
      openCode 0x89, openCode 0x8A, openCode 0x8E, openCode 0x8F, openCode 0x9A]
      = [false, true, true, false, true, true, false, false, false, false, false, true] := by decide

/-- R57: 0x8A is a minus with its point, 0x8E a P with its point, as R58 shows them. -/
theorem test_appearance_with_point :
    (appearance 0x8A, appearance 0x8E) = (.glyph ⟨.minus, true⟩, .glyph ⟨.letterP, true⟩) := by decide

/-- R56 in shutdown and under lamp test: dark, and every segment lit, on the digits scanned and on digit 7 alike. -/
theorem test_shutdown_and_lamp_test :
    let off := (after (.send .x 0x0C 0x00) readyState).chain.dev1
    let test := (after (.send .x 0x0F 0x01) readyState).chain.dev1
    (off.displays 0, off.displays 7, test.displays 0, test.displays 7) = (.dark, .dark, .allSegments, .allSegments) := by
  decide

/-- R145, C3: Digit6 and Digit7 hold what SETDIGIT writes, and a scan limit of 5 does not show them; Digit5 is shown. -/
theorem test_unscanned_digits_not_shown :
    let d := (after (.setDigit .x 6 0x03) readyState).chain.dev1
    let e := (after (.setDigit .x 7 0x03) readyState).chain.dev1
    (d.digitReg 6, d.displays 6, e.digitReg 7, e.displays 7, d.displays 5)
      = (0x03, .notShown, 0x03, .notShown, .glyph ⟨.digit 0, false⟩) := by decide

/-- R56: Intensity reads bits 3:0, ScanLimit bits 2:0, Shutdown and Test bit 0 only. -/
theorem test_register_meanings :
    let d := (((Device.zero.setReg 0xA 0xF8).setReg 0xB 0xFD).setReg 0xC 0xFE).setReg 0xF 0x01
    (d.intensity, d.scanLimit, d.poweredOn, d.lampTest) = (0x8, 5, false, true) := by decide

/-- R82 and R83. -/
theorem test_assembly_text :
    asmText (.setDigit .y 3 0x83) = some "SETDIGIT Y, 3, #131" ∧
    asmText (.send .x 0x0C 0) = some "SEND X, Shutdown, #0" ∧ asmText (.send .x 0x0D 0) = none := by decide
theorem test_rawFrame_z : expand (.rawFrame .z .digit0 7) =
    [.acquire, .xfer 0x01, .xfer 0x07, .xfer 0, .xfer 0, .xfer 0, .xfer 0, .release] := by decide

/-- R43: the top bit goes first. -/
theorem test_serialBits : serialBits 0x81 = [true, false, false, false, false, false, false, true] := by decide

/-! Witnesses: for each statement of Certificates/Slice0/Obligations.lean that has hypotheses, values that meet all of them
together, with a boundary value for each clause. -/

/-- A state in which the host is about to present a word. -/
def presenting (w : Command) (s : State) : State := presentFirst w s

theorem witness_ResetPutsBlockInResetState :
    ({ openState with host := [.assertReset] } : State).host = .assertReset :: [] ∧
    ({ openState with host := [.present 0, .assertReset] } : State).host = .present 0 :: .assertReset :: [] :=
  ⟨rfl, rfl⟩

/-- Each clause: the link idle, the link acquired; a latched register and, at address 0, a NoOp. -/
theorem witness_ResetWithOpenLinkLatchesDevices :
    (idleState.setHost [.assertReset]).host = [.assertReset] ∧ (idleState.setHost [.assertReset]).link = .idle ∧
    (openState.setHost [.assertReset]).host = [.assertReset] ∧ (openState.setHost [.assertReset]).link = .acquired ∧
    wireAddr (openState.chain.dev .first).sr = 0x1 ∧ wireAddr 0xF0AA = 0x0 := by decide

theorem witness_StepRunsDecodedCommand :
    (presenting 0x900000000000 idleState).host = .present 0x900000000000 :: [] ∧
    decode 0x900000000000 = .ok .stat ∧
    (presenting 0xA00000000000 idleState).host = .present 0xA00000000000 :: [] ∧
    decode 0xA00000000000 = .error .illegalOp := by decide

theorem witness_BlockWaitsForFirstWord : State.reset.host = [] := rfl

/-- The six checks and the pass, each at a boundary word: op 0 and op 0xA, slot 3, a must-be-zero bit, registers 0x0D and
0x10, the two link checks; and the boundary words that pass. -/
theorem witness_FirstFailingCheckIsTheOutcome :
    (presenting 0x040100000000 idleState).host = .present 0x040100000000 :: [] ∧
    [commandChecks 0x000000000000 .idle, commandChecks 0xA00000000000 .acquired, commandChecks 0x4C0100000006 .acquired,
      commandChecks 0x100000000001 .acquired, commandChecks 0x400D00000000 .idle, commandChecks 0x401000000000 .acquired,
      commandChecks 0x800000000000 .acquired, commandChecks 0x300000000000 .idle]
      = [some .illegalOp, some .illegalOp, some .badSlot, some .badOperand, some .badOperand, some .badOperand,
        some .linkBusy, some .linkIdle] ∧
    [commandChecks 0x400C00000000 .idle, commandChecks 0x400F00000000 .idle, commandChecks 0x480000000000 .idle,
      commandChecks 0x300000000000 .acquired, commandChecks 0x900000000000 .acquired, commandChecks 0x70FF00000000 .idle]
      = [none, none, none, none, none, some .badOperand] := by decide

theorem witness_OnlyResetClearsStickyBits :
    let s := raiseError .badSlot idleState
    (presenting 0x300000000000 s).host = .present 0x300000000000 :: [] ∧
    (presenting 0x300000000000 s).sticky.has .badSlot = true ∧
    commandChecks 0x300000000000 s.link = some .linkIdle ∧
    (s.setHost [.assertReset]).host = .assertReset :: [] := by decide

theorem witness_DecodeOfEncode :
    Instr.wellFormed (.send .z 0x0F 0xFF) = true ∧ Instr.wellFormed (.setDigit .z 7 0xFF) = true ∧
    Instr.wellFormed (.showValue .z 0xFFFFFFFF) = true := by decide

theorem witness_EncodeOfDecode : decode 0x8800FFFFFFFF = .ok (.showValue .z 0xFFFFFFFF) := by decide

/-- Each outcome: an error of the checks, and a command. -/
theorem witness_DecodingFollowsTheChecks :
    decode 0x4C00FFFFFF00 = .error .badSlot ∧ decodeChecks 0x4C00FFFFFF00 = some .badSlot ∧
    decode 0x480F000000FF = .ok (.send .z 0x0F 0xFF) ∧ decodeChecks 0x480F000000FF = none := by decide

/-- The address on either side of each edge of LEGAL_REG. -/
theorem witness_SendTakesOnlyLegalRegisters :
    [0x400C00000000#48, 0x400D00000000#48, 0x400E00000000#48, 0x400F00000000#48, 0x401000000000#48].map
        (fun w => (opField w == 0x4, slotField w == 3, w &&& 0x0300FFFFFF00 == 0, legalReg (addrField w)))
      = [(true, false, true, true), (true, false, true, false), (true, false, true, false), (true, false, true, true),
        (true, false, true, false)] := by decide

/-- AcquireOpensCycle, the composite commands, the raw frame, the empty cycle and the visibility of CONFIG need an idle
link. -/
theorem witness_link_idle : idleState.link = .idle ∧ readyState.link = .idle := by decide

/-- XferShiftsOneByte. -/
theorem witness_XferShiftsOneByte : openState.link = .acquired := by decide

/-- The written register, another one, and a device whose address is 0. -/
theorem witness_ReleaseLatchesEveryDevice :
    let s := { openState with chain := chainOf 0xF0AA 0xBBBB 0x0FCC }
    s.link = .acquired ∧
    (s.chain.dev .first).latch.reg 0x0 = 0xEE ∧ (s.chain.dev .second).latch.reg 0xB = 0xBB ∧
    (s.chain.dev .second).latch.reg 0xA = 0xEE ∧ (s.chain.dev .third).latch.reg 0xF = 0xCC := by decide

/-- SendRoutesToItsSlot, RepeatedSendIsIdempotentOnDevices, EmptyCycleLatchesAgain: the written register at its highest
address, NoOp, and a device not addressed. -/
theorem witness_SendRoutesToItsSlot :
    legalReg 0x0F = true ∧ legalReg 0x00 = true ∧ idleState.link = .idle ∧
    regsAt (after (.send .z 0x0F 0x55) idleState).chain.dev3 [0x0, 0xE, 0xF] = [0xEE, 0xEE, 0x55] ∧
    regsAt (after (.send .z 0x00 0x55) idleState).chain.dev3 [0x0, 0x1, 0xF] = [0xEE, 0xEE, 0xEE] ∧
    regsAt (after (.send .z 0x0F 0x55) idleState).chain.dev1 [0x0, 0xE, 0xF] = [0xEE, 0xEE, 0xEE] := by decide

/-- SetDigitWritesItsDigit at positions 0 and 7. -/
theorem witness_SetDigitWritesItsDigit :
    idleState.link = .idle ∧
    regsAt (after (.setDigit .x 0 0xFF) idleState).chain.dev1 [0x0, 0x1, 0x2] = [0xEE, 0xFF, 0xEE] ∧
    regsAt (after (.setDigit .x 7 0xFF) idleState).chain.dev1 [0x7, 0x8, 0x9] = [0xEE, 0xFF, 0xEE] := by decide

/-- ShowWritesSixDigits at its first and last register and on either side of them. -/
theorem witness_ShowWritesSixDigits :
    idleState.link = .idle ∧
    regsAt (after (.showValue .x 123456) idleState).chain.dev1 [0x0, 0x1, 0x6, 0x7] = [0xEE, 0x06, 0x01, 0xEE] := by
  decide +kernel

/-- LinkStateChecks: one command and one link state for each clause. -/
theorem witness_LinkStateChecks :
    Instr.wellFormed (.send .x 0x01 0) = true ∧ (Instr.send .x 0x01 0).opcode ∈ [Opcode.acquire, .send] ∧
    openState.link = .acquired ∧ Instr.wellFormed .release = true ∧ Instr.release.opcode ∈ [Opcode.xfer, .release] ∧
    idleState.link = .idle ∧ Instr.wellFormed (.render 0) = true ∧ (Instr.render 0).opcode ∈ [Opcode.render, .stat] := by
  decide

theorem witness_IllFormedSendRaisesBadOperand : legalReg 0x0D = false := by decide

/-- CommandFrame: a register a SEND does not write, on its own device and on another; a command of each list. -/
theorem witness_CommandFrame :
    exec (.send .x 0x01 0x07) idleState = .next (after (.send .x 0x01 0x07) idleState) ∧
    Instr.wellFormed (.send .x 0x01 0x07) = true ∧
    0x1 ∈ writtenRegs idleState.chain .first (.send .x 0x01 0x07) ∧
    0x2 ∉ writtenRegs idleState.chain .first (.send .x 0x01 0x07) ∧
    0x1 ∉ writtenRegs idleState.chain .second (.send .x 0x01 0x07) ∧
    exec .release openState = .next (after .release openState) ∧
    0x1 ∈ writtenRegs openState.chain .first .release ∧ 0x1 ∉ writtenRegs openState.chain .second .release := by
  refine ⟨rfl, ?_, ?_, ?_, ?_, rfl, ?_, ?_⟩ <;> decide

/-- NoStepWritesNoOpRegister, EveryStepKeepsBusOrder, DevicesFollowTheBus, DevicesAreInvisibleToTheBlock,
EveryStepLeavesOutputsOk: a step that emits a whole frame, and a reset with the link open. -/
theorem witness_step :
    step (presenting 0x480000000055 idleState) = .next (afterStep (presenting 0x480000000055 idleState)) ∧
    (afterStep (presenting 0x480000000055 idleState)).trace.length = 8 ∧
    step (openState.setHost [.assertReset]) = .next (afterStep (openState.setHost [.assertReset])) ∧
    (afterStep (openState.setHost [.assertReset])).trace = [.csHigh] := by
  refine ⟨by rfl, by decide, by rfl, by decide +kernel⟩

/-- BusOutputIsCycles: two steps that leave the link acquired, with one byte in the open cycle. -/
theorem witness_BusOutputIsCycles :
    let s := idleState.setHost [.present 0x100000000000, .present 0x2000000000A5]
    s.link = .idle ∧ afterSteps 2 s = .next (afterStep (afterStep s)) ∧
    (afterStep (afterStep s)).link = .acquired ∧ busOutput 2 s = openTail (some [0xA5]) := by
  refine ⟨by decide, by rfl, by decide, by decide +kernel⟩

/-- RenderLoopIsClosedForm: the largest span, a digit that is blank and one that is not. -/
theorem witness_RenderLoopIsClosedForm :
    (6 ≤ 6) ∧ blankAt 6 0 0 ∧ ¬ blankAt 6 1 0 ∧ ¬ blankAt 2 0 3 ∧ blankAt 2 0 4 ∧
    ((renderWith 3 6 0)[0], (renderWith 3 6 1)[0], (renderWith 3 2 0)[3], (renderWith 3 2 0)[4])
      = (0x0F, 0x01, 0x80, 0x0F) := by
  refine ⟨by decide, ?_, ?_, ?_, ?_, by decide⟩ <;> simp only [blankAt] <;> decide +kernel

/-- LeadingZeroBlanking: both leading digits blank, one, none. -/
theorem witness_LeadingZeroBlanking :
    ((renderValue 9999)[5], (renderValue 9999)[4]) = (0x0F, 0x0F) ∧
    ((renderValue 10000)[5], (renderValue 10000)[4]) = (0x0F, 0x01) ∧
    ((renderValue 100000)[5], (renderValue 100000)[4]) = (0x01, 0x00) := by decide

/-- ConfigSetsDisplayConditions and ShownValueReadsOnTheDisplay: an idle link, lamp test off, the last digit. -/
theorem witness_ShownValueReadsOnTheDisplay :
    readyState.link = .idle ∧ (readyState.chain.dev (pos .y)).lampTest = false ∧ (5 : Fin 8).val ≤ 5 := by decide

/-- ShowIsVisibleOnConfiguredDevice at the last digit that is scanned. -/
theorem witness_ShowIsVisibleOnConfiguredDevice :
    readyState.link = .idle ∧ (readyState.chain.dev (pos .z)).poweredOn = true ∧
    (readyState.chain.dev (pos .z)).lampTest = false ∧ (readyState.chain.dev (pos .z)).decodes 5 = true ∧
    (5 : Fin 6).val ≤ (readyState.chain.dev (pos .z)).scanLimit.toNat ∧
    ((after (.showValue .z 123456) readyState).chain.dev (pos .z)).displays 5 = .glyph ⟨.digit 1, false⟩ := by
  decide +kernel

/-- ShutdownDarkensTheDisplay: bit 0 clear with every other bit set, lamp test off; and before it the digit is not dark. -/
theorem witness_ShutdownDarkensTheDisplay :
    readyState.link = .idle ∧ (0xFE : Byte).getLsbD 0 = false ∧ (readyState.chain.dev (pos .x)).lampTest = false ∧
    (readyState.chain.dev (pos .x)).displays 0 = .glyph ⟨.digit 0, false⟩ := by decide

/-- LampTestLightsEverySegment: bit 0 alone, and every bit. -/
theorem witness_LampTestLightsEverySegment :
    readyState.link = .idle ∧ (0x01 : Byte).getLsbD 0 = true ∧ (0xFF : Byte).getLsbD 0 = true ∧
    (readyState.chain.dev (pos .z)).poweredOn = true := by decide

/-- DisplayReturnsAfterSleepAndLampTest at the last digit that is scanned. -/
theorem witness_DisplayReturnsAfterSleepAndLampTest :
    readyState.link = .idle ∧ (readyState.chain.dev (pos .y)).poweredOn = true ∧
    (readyState.chain.dev (pos .y)).lampTest = false ∧ (readyState.chain.dev (pos .y)).decodes 5 = true ∧
    (5 : Fin 8).val ≤ (readyState.chain.dev (pos .y)).scanLimit.toNat := by decide

/-- RegistersWithoutFunctionShowNothing at each of the three addresses. -/
theorem witness_RegistersWithoutFunctionShowNothing :
    let s := { openState with chain := chainOf 0xF0AA 0x0D11 0x0E22 }
    s.link = .acquired ∧ wireAddr (s.chain.dev .first).sr = 0x0 ∧ wireAddr (s.chain.dev .second).sr = 0xD ∧
    wireAddr (s.chain.dev .third).sr = 0xE := by decide

/-- ConfiguredScanLimitHidesTopDigits at both positions. -/
theorem witness_ConfiguredScanLimitHidesTopDigits :
    readyState.link = .idle ∧ (readyState.chain.dev (pos .y)).lampTest = false ∧ (6 : BitVec 3) ≤ 6 ∧ (6 : BitVec 3) ≤ 7 := by
  decide

/-- SetDigitShowsItsCode at the codes on either side of each open range, at the last digit that is scanned. -/
theorem witness_SetDigitShowsItsCode :
    readyState.link = .idle ∧ (readyState.chain.dev (pos .y)).poweredOn = true ∧
    (readyState.chain.dev (pos .y)).lampTest = false ∧ (readyState.chain.dev (pos .y)).decodes (5 : BitVec 3).toFin = true ∧
    (5 : BitVec 3).toNat ≤ (readyState.chain.dev (pos .y)).scanLimit.toNat ∧
    [0x09#8, 0x0F#8, 0x80#8, 0x8A#8, 0x8E#8, 0x8F#8].map (fun c => (c &&& 0x70 == 0, decide (0x0A ≤ c ∧ c ≤ 0x0E)))
      = List.replicate 6 (true, false) := by decide

/-- FontOfRenderedCodes: codes that differ in the ignored bits only. -/
theorem witness_FontOfRenderedCodes : (0xF3 : Byte) &&& 0x8F = 0x83 &&& 0x8F := by decide

end Sys2Proof.Tests
end

/-! PROOFS. The statements about the state: what every command leaves unchanged, which command a step runs, and how STATUS
reads. -/

namespace Sys2Proof.Machine

/-! What a command can do, as two cases, and the fields of a success. -/

/-- A command that answers a next state has raised its error or has succeeded. -/
theorem exec_next_cases {i : Instr} {s t : State} (h : exec i s = .next t) :
    (∃ e, instrError s.link i = some e ∧ t = raiseError e s) ∨
    (instrError s.link i = none ∧
      t = commandSuccess (successEvents i) (successLink s.link i) (successResult s i) s) := by
  rw [exec_eq] at h
  cases he : instrError s.link i with
  | some e => exact .inl ⟨e, rfl, by simpa [he] using h.symm⟩
  | none => exact .inr ⟨rfl, by simpa [he] using h.symm⟩

@[simp] theorem commandSuccess_link (es : List BusEvent) (l : Link) (r : BitVec 48) (s : State) :
    (commandSuccess es l r s).link = l := rfl
@[simp] theorem commandSuccess_sticky (es : List BusEvent) (l : Link) (r : BitVec 48) (s : State) :
    (commandSuccess es l r s).sticky = s.sticky := rfl
@[simp] theorem commandSuccess_chain (es : List BusEvent) (l : Link) (r : BitVec 48) (s : State) :
    (commandSuccess es l r s).chain = s.chain.drive es := rfl
@[simp] theorem commandSuccess_response (es : List BusEvent) (l : Link) (r : BitVec 48) (s : State) :
    (commandSuccess es l r s).response = some ⟨okStatus, r⟩ := rfl
@[simp] theorem commandSuccess_trace (es : List BusEvent) (l : Link) (r : BitVec 48) (s : State) :
    (commandSuccess es l r s).trace = s.trace ++ es := rfl
@[simp] theorem commandSuccess_host (es : List BusEvent) (l : Link) (r : BitVec 48) (s : State) :
    (commandSuccess es l r s).host = s.host := rfl

/-- The three errors a command can raise, and which commands raise them (R203's check 4, R204). -/
theorem instrError_eq_some_cases {l : Link} {i : Instr} {e : ErrorCode} (h : instrError l i = some e) :
    (e = .badOperand ∧ i.wellFormed = false) ∨
    (e = .linkBusy ∧ i.opcode ∉ [.xfer, .release, .render, .stat]) ∨
    (e = .linkIdle ∧ i.opcode ∈ [.xfer, .release]) := by
  cases i with
  | send sl r v =>
    cases hr : legalReg r <;> simp_all [instrError, Instr.wellFormed, Instr.opcode]
  | _ => simp_all [instrError, Instr.opcode]

/-- Only ACQUIRE and RELEASE leave the link in another state. -/
theorem successLink_of_ne {i : Instr} (l : Link) (ha : i.opcode ≠ .acquire) (hr : i.opcode ≠ .release) :
    successLink l i = l := by
  cases i with
  | acquire => exact absurd rfl ha
  | release => exact absurd rfl hr
  | _ => rfl

/-! What the events of a success leave unchanged in the devices. -/

/-- Without a byte event no shift register moves: a rising select keeps it (R55). -/
theorem sr_drive_successEvents {i : Instr} (h : i.opcode ∈ [.acquire, .release, .render, .stat]) (c : Chain)
    (p : Position) : ((c.drive (successEvents i)).dev p).sr = (c.dev p).sr := by
  cases i with
  | acquire | release | render | stat => simp [successEvents]
  | _ => simp [Instr.opcode] at h

/-- Frames to one slot keep every register that none of them addresses on that slot's device (R123). -/
theorem reg_drive_frames_of_not_mem (c : Chain) (sl : Slot) (cmds : List (Byte × Byte)) (p : Position) (a : BitVec 4)
    (h : p = pos sl → a ∉ cmds.map fun w => wireAddr (bytePair w.1 w.2)) :
    ((c.drive (cmds.flatMap fun w => cycleOf (frame sl w.1 w.2))).dev p).reg a = (c.dev p).reg a := by
  induction cmds generalizing c with
  | nil => rfl
  | cons w ws ih =>
    have hw : ¬ (p = pos sl ∧ a = wireAddr (bytePair w.1 w.2) ∧ a ≠ 0) :=
      fun ⟨hp, ha, _⟩ => h hp (ha ▸ List.mem_cons_self)
    have hws : p = pos sl → a ∉ ws.map fun w => wireAddr (bytePair w.1 w.2) :=
      fun hp ha => h hp (List.mem_cons_of_mem _ ha)
    rw [List.flatMap_cons, Chain.drive_append, ih _ hws, reg_drive_frame, if_neg hw]

/-- The registers CONFIG addresses, in the order of R142. -/
theorem wireAddr_configWrites :
    (configWrites.map fun w => wireAddr (bytePair w.1 w.2)) = [0x9, 0xB, 0xA, 0xC] := by
  simp [configWrites, Config.regAddr]

/-- The registers SHOW addresses, Digit0 first (R151). -/
theorem wireAddr_showWrites (codes : DigitBuffer) :
    ((showWrites codes).map fun w => wireAddr (bytePair w.1 w.2)) = [0x1, 0x2, 0x3, 0x4, 0x5, 0x6] := by
  simp [showWrites, Config.showOrder, digitAddr, Config.regAddr]

/-- A success keeps every device register that `writtenRegs` does not name (R55, R123). -/
theorem reg_drive_successEvents {i : Instr} {c : Chain} {p : Position} {a : BitVec 4} (h : a ∉ writtenRegs c p i) :
    ((c.drive (successEvents i)).dev p).reg a = (c.dev p).reg a := by
  cases i with
  | acquire | render | stat => rfl
  | xfer b => exact Chain.reg_shift c b p a
  | release =>
    have ha : a ≠ wireAddr (c.dev p).sr := by simpa [writtenRegs] using h
    simp [successEvents, ha]
  | send sl r v =>
    rw [successEvents, reg_drive_frame, if_neg]
    rintro ⟨rfl, rfl, -⟩
    simp [writtenRegs] at h
  | setDigit sl q code =>
    rw [successEvents, reg_drive_frame, if_neg]
    rintro ⟨rfl, rfl, -⟩
    simp [writtenRegs] at h
  | config sl =>
    refine reg_drive_frames_of_not_mem c sl configWrites p a fun hp => ?_
    rw [wireAddr_configWrites]
    simpa [writtenRegs, hp, and_left_comm] using h
  | showValue sl v =>
    refine reg_drive_frames_of_not_mem c sl (showWrites (renderValue v)) p a fun hp => ?_
    rw [wireAddr_showWrites]
    simpa only [writtenRegs, if_pos hp] using h

/-- Settles O29: an error touches its own sticky bit and the response only, a success touches the link as `successLink` says
and the devices as its events do. -/
theorem commandFrame : Obligations.CommandFrame := by
  intro i s t h
  obtain ⟨e, he, rfl⟩ | ⟨-, rfl⟩ := exec_next_cases h
  · obtain ⟨rfl, hw⟩ | ⟨rfl, ho⟩ | ⟨rfl, ho⟩ := instrError_eq_some_cases he
    · exact ⟨rfl, fun _ _ => rfl, ⟨rfl, rfl⟩, fun hw' => absurd hw' (by simp [hw]), fun _ => rfl, fun _ => rfl,
        fun _ _ => rfl, fun _ _ _ => rfl⟩
    · exact ⟨rfl, fun _ _ => rfl, ⟨rfl, rfl⟩, fun _ => rfl, fun ho' => absurd ho' ho, fun _ => rfl,
        fun _ _ => rfl, fun _ _ _ => rfl⟩
    · exact ⟨rfl, fun _ _ => rfl, ⟨rfl, rfl⟩, fun _ => rfl, fun _ => rfl, fun ho' => absurd ho ho',
        fun _ _ => rfl, fun _ _ _ => rfl⟩
  · exact ⟨rfl, successLink_of_ne s.link, ⟨rfl, rfl⟩, fun _ => rfl, fun _ => rfl, fun _ => rfl,
      fun ho => sr_drive_successEvents ho s.chain, fun _ _ ha => reg_drive_successEvents ha⟩

/-! The step that takes a command word. -/

/-- A word that decodes runs its command, with the ports cleared and the move taken (R33). -/
theorem step_of_decode_ok {s : State} {w : Command} {rest : List HostMove} {i : Instr}
    (h : s.host = .present w :: rest) (hd : decode w = .ok i) :
    step s = exec i { s with response := none, trace := [], host := rest } := by
  simp [step, takeMove_cons h, hd]

/-- A word that fails a check of R203 raises its error, with the ports cleared and the move taken (R75). -/
theorem step_of_decode_error {s : State} {w : Command} {rest : List HostMove} {e : ErrorCode}
    (h : s.host = .present w :: rest) (hd : decode w = .error e) :
    step s = .next (raiseError e { s with response := none, trace := [], host := rest }) := by
  simp [step, takeMove_cons h, hd]

/-- Settles O4: the two outcomes of decoding the word, one for each clause. -/
theorem stepRunsDecodedCommand : Obligations.StepRunsDecodedCommand := by
  intro s w rest h
  exact ⟨fun i hi => step_of_decode_ok h hi, fun e he => step_of_decode_error h he⟩

/-! STATUS and the chip-select line. -/

/-- The bits of STATUS: LINK in bit 0, the sticky bits in R25's order above it, then zeros. -/
theorem getLsbD_status (s : State) (n : Nat) :
    s.status.getLsbD n =
      [(linkBit s.link).getLsbD 0, s.sticky.illegal, s.sticky.slot, s.sticky.operand, s.sticky.busy,
        s.sticky.idle].getD n false := by
  simp only [State.status, statusByte, BitVec.getLsbD_append, BitVec.getLsbD_zero]
  match n with
  | 0 | 1 | 2 | 3 | 4 | 5 => simp
  | n + 6 => simp

/-- LINK is 1 exactly when the link is acquired (R23). -/
theorem linkBit_getLsbD_zero (l : Link) : (linkBit l).getLsbD 0 = true ↔ l = .acquired := by
  cases l <;> simp [linkBit]

/-- Chip select is low exactly when the link is acquired (R24). -/
theorem csN_eq_zero_iff (s : State) : s.csN = 0 ↔ s.link = .acquired := by
  cases h : s.link <;> simp [State.csN, h]

/-- Settles O9: STATUS bit by bit, then the chip-select line. -/
theorem statusFieldsReadAsNamed : Obligations.StatusFieldsReadAsNamed := by
  intro s
  have hlink : s.status.getLsbD 0 = true ↔ s.link = .acquired := by
    rw [getLsbD_status]
    exact linkBit_getLsbD_zero s.link
  exact ⟨hlink, getLsbD_status s 1, getLsbD_status s 2, getLsbD_status s 3, getLsbD_status s 4, getLsbD_status s 5,
    getLsbD_status s 6, getLsbD_status s 7, csN_eq_zero_iff s⟩

end Sys2Proof.Machine

/-! PROOFS. The statements about the devices on the bus: the order of the bus events, how the devices follow them and what
they never change, the frames, and what a display shows after a latch. -/

namespace Sys2Proof.Machine

/-! What a command and a step do on the bus, said once for every content of the devices. -/

/-- A command that raises no error succeeds. -/
theorem exec_of_instrError_none {i : Instr} {s : State} (h : instrError s.link i = none) :
    exec i s = .next (commandSuccess (successEvents i) (successLink s.link i) (successResult s i) s) := by
  rw [exec_eq, h]

/-- `f` from `s` on the bus: whatever the devices hold, it answers the one state `t`, whose trace is legal from the link
state of `s` and drives the devices (R41, R53 to R55, R62). -/
def PlaysOnBus (f : State → Host.Outcome State Fault Refusal) (s t : State) : Prop :=
  busRun s.link t.trace = some t.link ∧ ∀ c, f { s with chain := c } = .next { t with chain := c.drive t.trace }

/-- No result is read from the devices (R62, R103). -/
theorem successResult_chain (s : State) (i : Instr) (c : Chain) :
    successResult { s with chain := c } i = successResult s i := by
  cases i <;> rfl

/-- A command on the bus: an error is quiet, a success drives the devices by its events. -/
theorem exec_playsOnBus (i : Instr) {s : State} (htr : s.trace = []) : ∃ t, PlaysOnBus (exec i) s t := by
  cases he : instrError s.link i with
  | some e =>
    refine ⟨raiseError e s, by simp [htr], fun c => ?_⟩
    rw [exec_eq, he, raiseError_trace, htr]
    rfl
  | none =>
    refine ⟨commandSuccess (successEvents i) (successLink s.link i) (successResult s i) s, ?_, fun c => ?_⟩
    · simpa [htr] using busRun_successEvents he
    · rw [exec_of_instrError_none (s := { s with chain := c }) he, successResult_chain]
      simp [commandSuccess, htr]

/-- The reset input on the bus: one CsHigh if the link was open, else quiet (R231). -/
theorem applyReset_playsOnBus {s : State} (htr : s.trace = []) :
    ∃ t, PlaysOnBus (fun u => .next (applyReset u)) s t := by
  refine ⟨applyReset s, ?_⟩
  cases hl : s.link <;>
    simp [PlaysOnBus, applyReset_of_idle, applyReset_of_acquired, hl, htr, busStep]

/-- Everything a step does on the bus: it waits or raises a decode error, and the bus is quiet; or it resets the block or
runs a command. -/
theorem step_playsOnBus (s : State) : ∃ t, PlaysOnBus step s t := by
  match h : s.host with
  | [] => exact ⟨clearPorts s, rfl, fun c => by rw [step, takeMove_nil (s := { s with chain := c }) h]; rfl⟩
  | .assertReset :: rest =>
    obtain ⟨t, hrun, hreset⟩ :=
      applyReset_playsOnBus (s := { s with response := none, trace := [], host := rest }) rfl
    refine ⟨t, hrun, fun c => ?_⟩
    rw [step, takeMove_cons (s := { s with chain := c }) h]
    exact hreset c
  | .present w :: rest =>
    cases hd : decode w with
    | ok i =>
      obtain ⟨t, hrun, hexec⟩ := exec_playsOnBus i (s := { s with response := none, trace := [], host := rest }) rfl
      exact ⟨t, hrun, fun c => (step_of_decode_ok (s := { s with chain := c }) h hd).trans (hexec c)⟩
    | error e =>
      exact ⟨raiseError e { s with response := none, trace := [], host := rest }, rfl,
        fun c => step_of_decode_error (s := { s with chain := c }) h hd⟩

/-- A step's trace is legal from the old link state to the new one, and the devices and no other part of the answer depend
on what the devices held. -/
theorem step_next_bus {s t : State} (h : step s = .next t) :
    busRun s.link t.trace = some t.link ∧
    ∀ c, step { s with chain := c } = .next { t with chain := c.drive t.trace } := by
  obtain ⟨u, hrun, hstep⟩ := step_playsOnBus s
  obtain rfl : { u with chain := s.chain.drive u.trace } = t :=
    Host.Outcome.next.inj ((hstep s.chain).symm.trans h)
  exact ⟨hrun, hstep⟩

/-- Settles O31: the order of the events, from what a step does on the bus. -/
theorem everyStepKeepsBusOrder : Obligations.EveryStepKeepsBusOrder :=
  fun _ _ h => (step_next_bus h).1

/-- Settles O33: the step with the devices it has. -/
theorem devicesFollowTheBus : Obligations.DevicesFollowTheBus := by
  intro s t h
  have hs : step s = .next { t with chain := s.chain.drive t.trace } := (step_next_bus h).2 s.chain
  exact congrArg State.chain (Host.Outcome.next.inj (h.symm.trans hs))

/-- Settles O34: the other devices are driven by the same trace. -/
theorem devicesAreInvisibleToTheBlock : Obligations.DevicesAreInvisibleToTheBlock :=
  fun _ t c h => ⟨c.drive t.trace, (step_next_bus h).2 c⟩

/-! The bus output of a run. -/

/-- The output of a run is legal from the link state before it to the link state after it. -/
theorem busRun_busOutput {n : Nat} {s t : State} (h : afterSteps n s = .next t) :
    busRun s.link (busOutput n s) = some t.link := by
  induction n generalizing s with
  | zero => simpa [busOutput, afterSteps] using congrArg State.link (Host.Outcome.next.inj h)
  | succ n ih =>
    cases hs : step s with
    | next u =>
      simp only [afterSteps, hs] at h
      simp [busOutput, hs, busRun_append, everyStepKeepsBusOrder s u hs, ih h]
    | fault f => simp [afterSteps, hs] at h
    | refused r => simp [afterSteps, hs] at h

/-- The events are cycles, and then an open cycle exactly when they leave the link acquired (R41). -/
def AreCycles (es : List BusEvent) (l : Link) : Prop :=
  ∃ (cycles : List (List Byte)) (tail : Option (List Byte)),
    es = cycles.flatMap cycleOf ++ openTail tail ∧ (tail.isSome = true ↔ l = .acquired)

/-- One more legal event opens a cycle, lengthens the open one, or closes it. -/
theorem AreCycles.snoc {es : List BusEvent} {l m : Link} {e : BusEvent} (h : AreCycles es l)
    (he : busStep l e = some m) : AreCycles (es ++ [e]) m := by
  obtain ⟨cycles, tail, rfl, htail⟩ := h
  match l, e, tail with
  | .idle, .csLow, none =>
    exact ⟨cycles, some [], by simp [openTail], by simpa [busStep] using he.symm⟩
  | .acquired, .byte b, some bs =>
    exact ⟨cycles, some (bs ++ [b]), by simp [openTail], by simpa [busStep] using he.symm⟩
  | .acquired, .csHigh, some bs =>
    obtain rfl : Link.idle = m := Option.some.inj he
    exact ⟨cycles ++ [bs], none, by simp [openTail, cycleOf], by simp⟩
  | .idle, _, some _ | .acquired, _, none => simp at htail

/-- Events in legal order from an idle link are cycles. -/
theorem areCycles_of_busRun {es : List BusEvent} {l : Link} (h : busRun .idle es = some l) : AreCycles es l := by
  induction es using List.reverseRecOn generalizing l with
  | nil =>
    obtain rfl : Link.idle = l := Option.some.inj h
    exact ⟨[], none, rfl, by simp⟩
  | append_singleton es e ih =>
    rw [busRun_append, Option.bind_eq_some_iff] at h
    obtain ⟨m, hes, he⟩ := h
    exact (ih hes).snoc (by simpa using he)

/-- Settles O32: the output of a run is legal (O31 at every step), and legal events are cycles. -/
theorem busOutputIsCycles : Obligations.BusOutputIsCycles :=
  fun _ _ _ hidle h => areCycles_of_busRun (hidle ▸ busRun_busOutput h)

/-! What the devices do on a list of events. -/

/-- No event writes register 0 (R55). -/
theorem Chain.reg_zero_react (c : Chain) (e : BusEvent) (p : Position) :
    ((c.react e).dev p).reg 0 = (c.dev p).reg 0 := by
  cases e <;> simp

theorem Chain.reg_zero_drive (c : Chain) (es : List BusEvent) (p : Position) :
    ((c.drive es).dev p).reg 0 = (c.dev p).reg 0 := by
  induction es generalizing c with
  | nil => rfl
  | cons e es ih => rw [Chain.drive_cons, ih, Chain.reg_zero_react]

/-- Settles O30: the devices follow the bus (O33), where no event writes register 0. -/
theorem noStepWritesNoOpRegister : Obligations.NoStepWritesNoOpRegister := by
  intro s t p h
  rw [devicesFollowTheBus s t h, Chain.reg_zero_drive]

/-- A byte pushes the oldest of the six bytes out (R53). -/
theorem chainBytes_shift (c : Chain) (b : Byte) : chainBytes (c.shift b) = (chainBytes c ++ [b]).drop 1 := by
  simp [chainBytes, Chain.shift]

theorem chainBytes_drive_bytes (c : Chain) (bs : List Byte) :
    chainBytes (c.drive (bs.map .byte)) = (chainBytes c ++ bs).drop bs.length := by
  induction bs generalizing c with
  | nil => simp
  | cons b bs ih =>
    calc chainBytes ((c.shift b).drive (bs.map .byte))
        = ((chainBytes c ++ [b]).drop 1 ++ bs).drop bs.length := by rw [ih, chainBytes_shift]
      _ = ((chainBytes c ++ b :: bs).drop 1).drop bs.length := by simp [chainBytes]
      _ = (chainBytes c ++ b :: bs).drop (b :: bs).length := by simp [Nat.add_comm]

theorem reg_drive_bytes (c : Chain) (bs : List Byte) (p : Position) (a : BitVec 4) :
    ((c.drive (bs.map .byte)).dev p).reg a = (c.dev p).reg a := by
  induction bs generalizing c with
  | nil => rfl
  | cons b bs ih => rw [List.map_cons, Chain.drive_cons, ih, Chain.react_byte, Chain.reg_shift]

/-- Settles O44: one byte at a time. -/
theorem rawCycleKeepsLastSixBytes : Obligations.RawCycleKeepsLastSixBytes :=
  fun c bs => ⟨chainBytes_drive_bytes c bs, reg_drive_bytes c bs⟩

/-- The six bytes, read as the wire words of the three devices. -/
theorem sr_of_chainBytes {c : Chain} {f0 f1 f2 f3 f4 f5 : Byte} (h : chainBytes c = [f0, f1, f2, f3, f4, f5]) :
    (c.dev .third).sr = bytePair f0 f1 ∧ (c.dev .second).sr = bytePair f2 f3 ∧ (c.dev .first).sr = bytePair f4 f5 := by
  simp only [chainBytes, List.cons.injEq, and_true] at h
  obtain ⟨rfl, rfl, rfl, rfl, rfl, rfl⟩ := h
  simp [bytePair_high_low, Chain.dev]

/-- Settles O43: of the six bytes the chain held and the six sent, the last six are those sent (O44). -/
theorem sixBytesFillTheChain : Obligations.SixBytesFillTheChain :=
  fun c f0 f1 f2 f3 f4 f5 => sr_of_chainBytes (chainBytes_drive_bytes c [f0, f1, f2, f3, f4, f5])

/-! The link commands in an open cycle. -/

/-- Settles O19: XFER succeeds with its byte as the one event. -/
theorem xferShiftsOneByte : Obligations.XferShiftsOneByte := by
  intro s b h
  rw [exec_of_instrError_none (by simp [instrError, h])]
  rfl

/-- RELEASE in an open cycle succeeds. -/
theorem exec_release_of_acquired {s : State} (h : s.link = .acquired) :
    exec .release s = .next (commandSuccess [.csHigh] .idle 0 s) :=
  exec_of_instrError_none (by simp [instrError, h])

/-- Settles O20: the devices latch. -/
theorem releaseLatchesEveryDevice : Obligations.ReleaseLatchesEveryDevice := by
  intro s h
  exact ⟨_, exec_release_of_acquired h, rfl, rfl, rfl, rfl, rfl, fun p => ⟨by simp, by simp⟩⟩

/-! Frames. -/

/-- Settles O17: slot by slot. -/
theorem frameLayoutBySlot : Obligations.FrameLayoutBySlot := by
  intro s r v
  refine ⟨?_, ?_, frame_eq_tableFrame s r v, ?_⟩ <;> cases s <;> rfl

/-- SEND to a legal register from an idle link succeeds (R121). -/
theorem exec_send_of_idle {s : State} {sl : Slot} {r v : Byte} (hr : legalReg r = true) (h : s.link = .idle) :
    exec (.send sl r v) s = .next (commandSuccess (cycleOf (frame sl r v)) .idle 0 s) := by
  rw [exec_of_instrError_none (by simp [instrError, h, hr]), h]
  rfl

/-- The same frame again finds every shift register and every register as the frame leaves it (R48). -/
theorem drive_frame_twice (c : Chain) (sl : Slot) (r v : Byte) :
    (c.drive (cycleOf (frame sl r v))).drive (cycleOf (frame sl r v)) = c.drive (cycleOf (frame sl r v)) := by
  refine Chain.ext_dev fun p => Device.ext_reg ?_ fun a => ?_
  · simp only [sr_drive_frame]
  · simp only [reg_drive_frame]
    split <;> rfl

/-- Settles O46: both SENDs succeed, and the second drives the devices by the same frame. -/
theorem repeatedSendIsIdempotentOnDevices : Obligations.RepeatedSendIsIdempotentOnDevices := by
  intro s sl r v hr h
  refine ⟨_, _, exec_send_of_idle hr h, exec_send_of_idle hr rfl, drive_frame_twice s.chain sl r v, ?_⟩
  rw [← frame_eq_tableFrame]
  rfl

/-! What a display shows. -/

/-- A frame to a display register writes it on its slot's device and keeps the others (R123). -/
theorem reg_drive_frame_regAddr (c : Chain) (sl : Slot) (g : Reg) (v : Byte) (hg : g ≠ .noOp) (a : BitVec 4) :
    ((c.drive (cycleOf (frame sl (Config.regAddr g) v))).dev (pos sl)).reg a =
      if a = (Config.regAddr g).extractLsb' 0 4 then v else (c.dev (pos sl)).reg a := by
  have h0 : (Config.regAddr g).extractLsb' 0 4 ≠ 0 := by
    cases g with
    | noOp => exact absurd rfl hg
    | _ => decide
  have hwrite : a = (Config.regAddr g).extractLsb' 0 4 ∧ a ≠ 0 ↔ a = (Config.regAddr g).extractLsb' 0 4 :=
    and_iff_left_of_imp fun ha => ha ▸ h0
  simp only [reg_drive_frame, wireAddr_bytePair, true_and, hwrite]

/-- Settles O55: only Shutdown is written, and without lamp test a device in shutdown is dark. -/
theorem shutdownDarkensTheDisplay : Obligations.ShutdownDarkensTheDisplay := by
  intro s sl v h hv hlamp
  have hreg := reg_drive_frame_regAddr s.chain sl .shutdown v (by decide)
  refine ⟨_, exec_send_of_idle (by decide) h, fun k => Device.displays_of_shutdown k ?_ ?_, fun a ha => ?_⟩
  · rw [Device.poweredOn, commandSuccess_chain, hreg]; exact hv
  · rw [Device.lampTest, commandSuccess_chain, hreg]; exact hlamp
  · rw [commandSuccess_chain, hreg]; exact if_neg ha

/-- Settles O56: only Test is written, and a device that is powered on under lamp test lights every segment. -/
theorem lampTestLightsEverySegment : Obligations.LampTestLightsEverySegment := by
  intro s sl v h hv hpower
  have hreg := reg_drive_frame_regAddr s.chain sl .test v (by decide)
  refine ⟨_, exec_send_of_idle (by decide) h, fun k => Device.displays_of_lampTest k ?_ ?_, fun a ha => ?_⟩
  · rw [Device.poweredOn, commandSuccess_chain, hreg]; exact hpower
  · rw [Device.lampTest, commandSuccess_chain, hreg]; exact hv
  · rw [commandSuccess_chain, hreg]; exact if_neg ha

/-- Settles O58: the latch writes no register that has a function. -/
theorem registersWithoutFunctionShowNothing : Obligations.RegistersWithoutFunctionShowNothing := by
  intro s p h haddr
  refine ⟨_, exec_release_of_acquired h, fun k => Device.displays_congr (fun a h0 hD hE => ?_) k⟩
  have ha : a ≠ wireAddr (s.chain.dev p).sr := by
    rintro rfl
    simp only [List.mem_cons, List.not_mem_nil, or_false] at haddr
    exact haddr.elim h0 fun hDE => hDE.elim hD hE
  simp [ha]

/-- The font reads bits 3:0 and bit 7 of a code only (R57). -/
theorem font_mask (c : Byte) : font (c &&& 0x8F) = font c := by
  have h4 : (c &&& 0x8F).extractLsb' 0 4 = c.extractLsb' 0 4 := by
    rw [BitVec.extractLsb'_and]
    exact BitVec.and_allOnes
  rw [font, h4]
  simp [font]

/-- Settles O53: the ten digits one by one; codes that agree under the mask 0x8F show the same. -/
theorem fontOfRenderedCodes : Obligations.FontOfRenderedCodes := by
  refine ⟨by decide, by decide, fun c d h => ?_⟩
  rw [← font_mask c, h, font_mask]

end Sys2Proof.Machine

/-! PROOFS. The statements about command words: decoding is the checks of R203 and then reading the operands, and words and
commands determine each other. -/

namespace Sys2Proof

open Sys2Proof.Machine

/-! Fields of a word whose must-be-zero bits are clear. -/

/-- A mask that is clear in a word is clear in every field. -/
theorem fields_and_eq_zero {w m : Command} (h : w &&& m = 0) :
    slotField w &&& slotField m = 0 ∧ rsvField w &&& rsvField m = 0 ∧
    addrField w &&& addrField m = 0 ∧ dataField w &&& dataField m = 0 := by
  obtain ⟨hs, hr, ha, hd⟩ := fields_and w m
  rw [h] at hs hr ha hd
  exact ⟨hs.symm, hr.symm, ha.symm, hd.symm⟩

/-- A field that lies wholly in a clear mask is zero. -/
theorem eq_zero_of_and_eq_zero {n : Nat} {f m : BitVec n} (h : f &&& m = 0) (hm : m = BitVec.allOnes n) : f = 0 := by
  rwa [hm, BitVec.and_allOnes] at h

/-- The reserved field is among the must-be-zero bits of every command (R70, R74). -/
theorem rsvField_eq_zero {w : Command} {o : Opcode} (h : w &&& o.mbzMask = 0) : rsvField w = 0 := by
  obtain ⟨-, hr, -, -⟩ := fields_and_eq_zero h
  exact eq_zero_of_and_eq_zero hr (by cases o <;> rfl)

/-- The low bits of a vector are all of it when a mask over the others is clear. -/
theorem setWidth_extractLsb'_of_and_eq_zero {m n : Nat} {d mask : BitVec m} (h : d &&& mask = 0)
    (hm : ∀ i < m, n ≤ i → mask.getLsbD i = true) : (d.extractLsb' 0 n).setWidth m = d := by
  apply BitVec.eq_of_getLsbD_eq
  intro i hi
  by_cases hn : i < n
  · simp [hi, hn]
  · have hbit : (d &&& mask).getLsbD i = false := h ▸ BitVec.getLsbD_zero
    rw [BitVec.getLsbD_and, hm i hi (by omega), Bool.and_true] at hbit
    simp [hn, hbit]

/-- With data[31:8] clear the data field is the byte operand (R71, R74). -/
theorem zeroExtend_byteField {w : Command} (h : dataField w &&& 0xFFFFFF00 = 0) :
    (byteField w).zeroExtend 32 = dataField w := by
  have hbyte : byteField w = (dataField w).extractLsb' 0 8 := by simp [byteField, dataField]
  rw [hbyte]
  exact setWidth_extractLsb'_of_and_eq_zero h (by decide)

/-- With addr[7:3] clear the address field is the position operand (R71, R74). -/
theorem zeroExtend_positionField {w : Command} (h : addrField w &&& 0xF8 = 0) :
    (positionField w).zeroExtend 8 = addrField w := by
  have hpos : positionField w = (addrField w).extractLsb' 0 3 := by
    apply BitVec.eq_of_getLsbD_eq
    intro i hi
    simp [positionField, addrField, hi, show i < 8 by omega]
  rw [hpos]
  exact setWidth_extractLsb'_of_and_eq_zero h (by decide)

/-! What the op and slot fields select, and the sets of R74 and R81. -/

/-- Only the op code of a command selects it (R72). -/
theorem opcodeOf_eq_some {f : BitVec 4} {o : Opcode} (h : opcodeOf f = some o) : f = o.code := by
  revert f; cases o <;> decide

/-- The illegal op values (R76). -/
theorem opcodeOf_eq_none_iff (f : BitVec 4) : opcodeOf f = none ↔ f = 0x0 ∨ 0xA ≤ f := by
  revert f; decide

/-- The slot a slot field names; X for field 3, which names none (R73). -/
def slotAt (f : BitVec 2) : Slot := (slotOf f).getD .x

/-- Every slot field but 3 names a slot (R73). -/
theorem slotOf_of_ne {f : BitVec 2} (h : f ≠ 3) : slotOf f = some (slotAt f) := by
  revert f; decide

/-- Check 2 of R203 by the slot field alone. -/
theorem withSlot_eq (w : Command) (k : Slot → Except ErrorCode Instr) :
    withSlot w k = if slotField w = 3 then .error .badSlot else k (slotAt (slotField w)) := by
  unfold withSlot
  split_ifs with h
  · rw [h]; rfl
  · rw [slotOf_of_ne h]

theorem slotCode_slotAt {f : BitVec 2} (h : f ≠ 3) : slotCode (slotAt f) = f := by
  revert f; decide

@[simp] theorem slotAt_slotCode (s : Slot) : slotAt (slotCode s) = s := by
  simp [slotAt]

theorem slotCode_ne_three (s : Slot) : slotCode s ≠ 3 := by
  cases s <;> decide

theorem mbzOfOp_code (o : Opcode) : mbzOfOp o.code = o.mbzMask := by
  cases o <;> rfl

/-- The two ways of writing LEGAL_REG agree (R80, R81). -/
theorem inLegalSet_eq_legalReg (r : Byte) : inLegalSet r = legalReg r := by
  revert r; decide

/-- The address of every display register is legal (R80, R81). -/
theorem legalReg_regAddr (g : Reg) : legalReg (Config.regAddr g) = true := by
  cases g <;> rfl

/-! Decoding as checks and operands. -/

/-- The commands with a slot operand (R73). -/
def Opcode.takesSlot : Opcode → Bool
  | .send | .config | .setDigit | .showValue => true
  | .acquire | .xfer | .release | .render | .stat => false

/-- The command of an op code with the operands a word holds (R71). -/
def readInstr (w : Command) : Opcode → Instr
  | .acquire => .acquire
  | .xfer => .xfer (byteField w)
  | .release => .release
  | .send => .send (slotAt (slotField w)) (addrField w) (byteField w)
  | .config => .config (slotAt (slotField w))
  | .setDigit => .setDigit (slotAt (slotField w)) (positionField w) (byteField w)
  | .render => .render (dataField w)
  | .showValue => .showValue (slotAt (slotField w)) (dataField w)
  | .stat => .stat

@[simp] theorem opcode_readInstr (w : Command) (o : Opcode) : (readInstr w o).opcode = o := by
  cases o <;> rfl

/-- Checks 2 to 4 for a legal op value (R203). -/
theorem decodeChecks_of_opField {w : Command} {o : Opcode} (h : opField w = o.code) :
    decodeChecks w =
      if o.takesSlot = true ∧ slotField w = 3 then some .badSlot
      else if w &&& o.mbzMask ≠ 0 then some .badOperand
      else if o = .send ∧ legalReg (addrField w) = false then some .badOperand
      else none := by
  have hop : ¬ (o.code = 0x0 ∨ 0xA ≤ o.code) := by cases o <;> decide
  have hslot : o.code ∈ [0x4#4, 0x5#4, 0x6#4, 0x8#4] ↔ o.takesSlot = true := by cases o <;> decide
  have hsend : o.code = 0x4 ↔ o = .send := by cases o <;> decide
  simp only [decodeChecks, h, if_neg hop, hslot, hsend, mbzOfOp_code, inLegalSet_eq_legalReg]

/-- What the checks let through for a legal op value: a slot where the command takes one, clear must-be-zero bits, and a
legal register for SEND (R203). -/
theorem decodeChecks_eq_none_iff {w : Command} {o : Opcode} (h : opField w = o.code) :
    decodeChecks w = none ↔
      (o.takesSlot = true → slotField w ≠ 3) ∧ w &&& o.mbzMask = 0 ∧
      (o = .send → legalReg (addrField w) = true) := by
  rw [decodeChecks_of_opField h]
  split_ifs <;> simp_all

/-- A word with a legal op value decodes to the first failing check, or else to its operands (R75). -/
theorem decode_of_opField {w : Command} {o : Opcode} (h : opField w = o.code) :
    decode w = match decodeChecks w with
      | some e => .error e
      | none => .ok (readInstr w o) := by
  rw [decodeChecks_of_opField h, decode, h, opcodeOf_code]
  cases o with
  | acquire | xfer | release | render | stat =>
    simp only [withMbz, Opcode.takesSlot, readInstr]
    split_ifs <;> simp_all
  | config | setDigit | showValue | send =>
    simp only [withSlot_eq, withMbz, withReg, Opcode.takesSlot, readInstr]
    split_ifs <;> simp_all

/-- A word with an illegal op value is ILLEGAL_OP (R76). -/
theorem decode_of_opcodeOf_eq_none {w : Command} (h : opcodeOf (opField w) = none) :
    decode w = .error .illegalOp ∧ decodeChecks w = some .illegalOp := by
  constructor
  · rw [decode, h]
  · exact if_pos ((opcodeOf_eq_none_iff _).1 h)

/-- Every word fails a first check, which is its error, or passes them all and decodes to a command (R75). -/
theorem decode_cases (w : Command) :
    (∃ e, decodeChecks w = some e ∧ decode w = .error e) ∨ (∃ i, decodeChecks w = none ∧ decode w = .ok i) := by
  cases ho : opcodeOf (opField w) with
  | none =>
    obtain ⟨hd, hc⟩ := decode_of_opcodeOf_eq_none ho
    exact .inl ⟨_, hc, hd⟩
  | some o =>
    rw [decode_of_opField (opcodeOf_eq_some ho)]
    cases decodeChecks w with
    | some e => exact .inl ⟨e, rfl, rfl⟩
    | none => exact .inr ⟨_, rfl, rfl⟩

/-- A word that decodes has the op code of its command, passes the checks, and holds the command's operands. -/
theorem decode_eq_ok_iff {w : Command} {i : Instr} :
    decode w = .ok i ↔ opField w = i.opcode.code ∧ decodeChecks w = none ∧ readInstr w i.opcode = i := by
  constructor
  · intro h
    cases ho : opcodeOf (opField w) with
    | none => simp [decode_of_opcodeOf_eq_none ho] at h
    | some o =>
      have hop := opcodeOf_eq_some ho
      rw [decode_of_opField hop] at h
      cases hc : decodeChecks w with
      | some e => simp [hc] at h
      | none =>
        obtain rfl : readInstr w o = i := by simpa [hc] using h
        simp [hop]
  · rintro ⟨hop, hc, hi⟩
    rw [decode_of_opField hop, hc, hi]

/-! The word of a command. -/

/-- Every encoded word carries its op code and has its must-be-zero bits clear (R72, R74). -/
theorem opAndMask (i : Instr) : Laws.OpAndMask.Statement i :=
  match i with
  | .acquire => Laws.OpAndMask.acquire
  | .xfer b => Laws.OpAndMask.xfer b
  | .release => Laws.OpAndMask.release
  | .send s r v => Laws.OpAndMask.send s r v
  | .config s => Laws.OpAndMask.config s
  | .setDigit s p c => Laws.OpAndMask.setDigit s p c
  | .render v => Laws.OpAndMask.render v
  | .showValue s v => Laws.OpAndMask.showValue s v
  | .stat => Laws.OpAndMask.stat

/-- The operands of a command stand in its word. -/
theorem readInstr_encode (i : Instr) : readInstr (encode i) i.opcode = i := by
  cases i <;> simp [encode, readInstr, Instr.opcode]

/-- The slot field of a command that takes a slot is never 3 (R73). -/
theorem slotField_encode_ne {i : Instr} (h : i.opcode.takesSlot = true) : slotField (encode i) ≠ 3 := by
  cases i with
  | send s | config s | setDigit s | showValue s => simpa [encode] using slotCode_ne_three s
  | _ => simp [Instr.opcode, Opcode.takesSlot] at h

/-- A well-formed SEND has a legal register in its address field (R81). -/
theorem legalReg_encode {i : Instr} (hw : i.wellFormed = true) (h : i.opcode = .send) :
    legalReg (addrField (encode i)) = true := by
  cases i with
  | send s r v => simpa [encode, Instr.wellFormed] using hw
  | _ => simp [Instr.opcode] at h

/-- Settles O11: the word of a well-formed command passes the checks and holds the command's operands. -/
theorem decodeOfEncode : Obligations.DecodeOfEncode := by
  intro i hw
  obtain ⟨hop, hmbz⟩ := opAndMask i
  have hchecks : decodeChecks (encode i) = none :=
    (decodeChecks_eq_none_iff hop).2 ⟨slotField_encode_ne, hmbz, legalReg_encode hw⟩
  exact decode_eq_ok_iff.2 ⟨hop, hchecks, readInstr_encode i⟩

/-- A word with an op code, clear must-be-zero bits and a slot where the command takes one is the word of the command it
holds: each field is the operand's or zero (R70 to R74). -/
theorem encode_readInstr {w : Command} {o : Opcode} (hop : opField w = o.code) (hmbz : w &&& o.mbzMask = 0)
    (hslot : o.takesSlot = true → slotField w ≠ 3) : encode (readInstr w o) = w := by
  obtain ⟨hs, -, ha, hd⟩ := fields_and_eq_zero hmbz
  refine Eq.trans ?_ (formatH_fields (rsvField_eq_zero hmbz))
  rw [hop]
  cases o with
  | acquire | release | stat =>
    rw [eq_zero_of_and_eq_zero hs rfl, eq_zero_of_and_eq_zero ha rfl, eq_zero_of_and_eq_zero hd rfl]; rfl
  | xfer =>
    rw [eq_zero_of_and_eq_zero hs rfl, eq_zero_of_and_eq_zero ha rfl, ← zeroExtend_byteField hd]; rfl
  | send =>
    rw [← slotCode_slotAt (hslot rfl), ← zeroExtend_byteField hd]; rfl
  | config =>
    rw [eq_zero_of_and_eq_zero ha rfl, eq_zero_of_and_eq_zero hd rfl, ← slotCode_slotAt (hslot rfl)]; rfl
  | setDigit =>
    rw [← slotCode_slotAt (hslot rfl), ← zeroExtend_positionField ha, ← zeroExtend_byteField hd]; rfl
  | render =>
    rw [eq_zero_of_and_eq_zero hs rfl, eq_zero_of_and_eq_zero ha rfl]; rfl
  | showValue =>
    rw [eq_zero_of_and_eq_zero ha rfl, ← slotCode_slotAt (hslot rfl)]; rfl

/-- Only SEND can be ill formed, by its address field (R81). -/
theorem wellFormed_readInstr {w : Command} {o : Opcode} (h : o = .send → legalReg (addrField w) = true) :
    (readInstr w o).wellFormed = true := by
  cases o with
  | send => exact h rfl
  | _ => rfl

/-- Settles O12: a word that decodes passes the checks, so it is made of the operands the decoder reads. -/
theorem encodeOfDecode : Obligations.EncodeOfDecode := by
  intro w i h
  obtain ⟨hop, hchecks, hi⟩ := decode_eq_ok_iff.1 h
  obtain ⟨hslot, hmbz, hreg⟩ := (decodeChecks_eq_none_iff hop).1 hchecks
  rw [← hi]
  exact ⟨wellFormed_readInstr hreg, encode_readInstr hop hmbz hslot⟩

/-- Settles O14: the checks decide between error and command, and the command is the op field's. -/
theorem decodingFollowsTheChecks : Obligations.DecodingFollowsTheChecks := by
  intro w
  have hop : ∀ i, decode w = .ok i → i.opcode.code = opField w := fun i h => (decode_eq_ok_iff.1 h).1.symm
  obtain ⟨e, hc, hd⟩ | ⟨i, hc, hd⟩ := decode_cases w
  · exact ⟨by simp [hc, hd], by simp [hc, hd], hop⟩
  · exact ⟨by simp [hc, hd], by simp [hc, hd], hop⟩

/-- Settles O15: the fourteen addresses, and check 4 as the only one left for such a word. -/
theorem sendTakesOnlyLegalRegisters : Obligations.SendTakesOnlyLegalRegisters := by
  refine ⟨by decide, fun w hop hslot hmbz => ?_⟩
  have hcode : opField w = Opcode.send.code := hop
  have hmask : ¬ w &&& Opcode.send.mbzMask ≠ 0 := not_not.2 hmbz
  constructor
  · intro hreg
    have hcheck : decodeChecks w = some .badOperand := by
      rw [decodeChecks_of_opField hcode, if_neg fun h => hslot h.2, if_neg hmask, if_pos ⟨rfl, hreg⟩]
    exact ((decodingFollowsTheChecks w).1 _).2 hcheck
  · intro hreg
    have hcheck : decodeChecks w = none :=
      (decodeChecks_eq_none_iff hcode).2 ⟨fun _ => hslot, hmbz, fun _ => hreg⟩
    exact ⟨slotAt (slotField w), decode_eq_ok_iff.2 ⟨hcode, hcheck, rfl⟩⟩

/-- The word of a well-formed command, given as a number, decodes to it. -/
theorem decode_of_encode_eq {i : Instr} {w : Command} (hw : i.wellFormed = true) (h : encode i = w) :
    decode w = .ok i :=
  h ▸ decodeOfEncode i hw

/-- Settles O13: each word is the encoding of its command (O11). -/
theorem workedEncodingsDecode : Obligations.WorkedEncodingsDecode := by
  refine ⟨?_, ?_, ?_, ?_, ?_, ?_, ?_, ?_, ?_, ?_, ?_⟩ <;> exact decode_of_encode_eq rfl rfl

/-- Settles O16: the table of R80, and the eight positions. -/
theorem registerAddressMap : Obligations.RegisterAddressMap := by
  have hdigit : ∀ p : BitVec 3, digitAddr p = 0x01 + p.zeroExtend 8 := by decide
  exact ⟨rfl, rfl, rfl, rfl, rfl, rfl, rfl, rfl, rfl, rfl, rfl, rfl, rfl, rfl, hdigit⟩

/-- Settles O48: R83's table, and the two registers it names. -/
theorem pseudoCommandExpansions : Obligations.PseudoCommandExpansions :=
  fun _ _ => ⟨rfl, rfl, rfl, rfl, legalReg_regAddr .test, legalReg_regAddr .shutdown⟩

/-- Settles O28: no word decodes to an ill-formed command (O12), and check 4 comes before the link. -/
theorem illFormedSendRaisesBadOperand : Obligations.IllFormedSendRaisesBadOperand := by
  intro s sl r v hr
  constructor
  · intro w hw
    have hwf : legalReg r = true := (encodeOfDecode w _ hw).1
    simp [hr] at hwf
  · rw [exec_eq, instrError, if_pos hr]
    rfl

end Sys2Proof

/-! PROOFS. The statements about the outputs of a step, the raw commands that spell out a SEND, and the response of RENDER. -/

namespace Sys2Proof.Machine

/-! The outputs of a step. -/

/-- An error is a well-formed output when no event stands before it (R78, R201). -/
theorem outputsOk_raiseError (e : ErrorCode) {s : State} (htr : s.trace = []) : OutputsOk (raiseError e s) := by
  have hstatus : (errorStatus e).toNat ≤ 5 := by cases e <;> decide
  simp [OutputsOk, htr, hstatus]

/-- A success emits the number of events R247 gives for its command. -/
theorem length_successEvents (i : Instr) : (successEvents i).length = eventCount i.opcode := by
  cases i with
  | acquire | xfer | release | render | stat => rfl
  | send sl r v => exact length_cycleOf_frame sl r v
  | setDigit sl p c => exact length_cycleOf_frame sl (digitAddr p) c
  | config sl => exact length_cycles sl configWrites
  | showValue sl v => exact length_cycles sl (showWrites (renderValue v))

theorem eventCount_mem (o : Opcode) : eventCount o ∈ [0, 1, 8, 32, 48] := by
  cases o <;> decide

/-- A command's outputs are well formed when no event stands before them. -/
theorem outputsOk_of_exec {i : Instr} {s t : State} (htr : s.trace = []) (h : exec i s = .next t) : OutputsOk t := by
  obtain ⟨e, -, rfl⟩ | ⟨-, rfl⟩ := exec_next_cases h
  · exact outputsOk_raiseError e htr
  · have hcount : (successEvents i).length ∈ [0, 1, 8, 32, 48] := length_successEvents i ▸ eventCount_mem i.opcode
    simpa [OutputsOk, htr, okStatus] using hcount

/-- A reset has no response, and at most its one event (R231). -/
theorem outputsOk_applyReset {s : State} (htr : s.trace = []) : OutputsOk (applyReset s) := by
  cases hl : s.link with
  | idle => simp [OutputsOk, applyReset_of_idle hl, htr]
  | acquired => simp [OutputsOk, applyReset_of_acquired hl, htr]

/-- Settles O35: a step waits, resets, raises a decode error or runs a command, each with the ports cleared first. -/
theorem everyStepLeavesOutputsOk : Obligations.EveryStepLeavesOutputsOk := by
  intro s t h
  rw [step_eq] at h
  match hhost : s.host with
  | [] =>
    obtain rfl : clearPorts s = t := by simpa [hhost] using h
    exact .inl rfl
  | .assertReset :: rest =>
    obtain rfl : applyReset ((clearPorts s).setHost rest) = t := by simpa [hhost] using h
    exact outputsOk_applyReset rfl
  | .present w :: rest =>
    cases hd : decode w with
    | ok i => exact outputsOk_of_exec (i := i) (s := (clearPorts s).setHost rest) rfl (by simpa [hhost, hd] using h)
    | error e =>
      obtain rfl : raiseError e ((clearPorts s).setHost rest) = t := by simpa [hhost, hd] using h
      exact outputsOk_raiseError e rfl

/-! The raw commands of a frame. -/

/-- ACQUIRE from an idle link succeeds (R100). -/
theorem exec_acquire_of_idle {s : State} (h : s.link = .idle) :
    exec .acquire s = .next (commandSuccess [.csLow] .acquired 0 s) :=
  exec_of_instrError_none (by simp [instrError, h])

/-- XFER in an open cycle succeeds (R102). -/
theorem exec_xfer_of_acquired {b : Byte} {s : State} (h : s.link = .acquired) :
    exec (.xfer b) s = .next (commandSuccess [.byte b] .acquired 0 s) := by
  rw [exec_of_instrError_none (by simp [instrError, h]), h]
  rfl

/-- Two successes one after the other are one with the events of both. -/
theorem commandSuccess_commandSuccess (es fs : List BusEvent) (l m : Link) (q r : BitVec 48) (s : State) :
    commandSuccess fs m r (commandSuccess es l q s) = commandSuccess (es ++ fs) m r s := by
  simp [commandSuccess]

/-- The XFERs of a list of bytes, in a cycle that `es` has opened, add the bytes to it (R102). -/
theorem execAll_xfers_append (bs : List Byte) (is : List Instr) (es : List BusEvent) (s : State) :
    execAll (bs.map .xfer ++ is) (commandSuccess es .acquired 0 s) =
      execAll is (commandSuccess (es ++ bs.map .byte) .acquired 0 s) := by
  induction bs generalizing es with
  | nil => simp
  | cons b bs ih =>
    have hes : es ++ (b :: bs).map .byte = (es ++ [.byte b]) ++ bs.map .byte := by simp
    rw [hes, ← ih, List.map_cons, List.cons_append, execAll, exec_xfer_of_acquired rfl, commandSuccess_commandSuccess]

/-- ACQUIRE, the XFERs of a list of bytes and RELEASE are one cycle around the bytes (R107). -/
theorem execAll_rawCycle (bs : List Byte) {s : State} (h : s.link = .idle) :
    execAll (.acquire :: (bs.map .xfer ++ [.release])) s = .next (commandSuccess (cycleOf bs) .idle 0 s) := by
  rw [execAll, exec_acquire_of_idle h]
  simp only [execAll_xfers_append, execAll]
  rw [exec_release_of_acquired rfl, commandSuccess_commandSuccess]
  rfl

/-- RAWFRAME is the raw cycle of the frame SEND would send (R83). -/
theorem expand_rawFrame (sl : Slot) (g : Reg) (v : Byte) :
    expand (.rawFrame sl g v) = .acquire :: ((frame sl (Config.regAddr g) v).map .xfer ++ [.release]) := by
  simp [expand, frame]

/-- Settles O47: both are one cycle around the six bytes of the frame. -/
theorem rawFrameEqualsSend : Obligations.RawFrameEqualsSend := by
  intro s sl g v h
  obtain ⟨-, -, -, hlen⟩ := frameLayoutBySlot sl (Config.regAddr g) v
  rw [expand_rawFrame]
  exact ⟨by simp [hlen], _, execAll_rawCycle _ h, exec_send_of_idle (legalReg_regAddr g) h⟩

/-! The packed codes of a response. -/

/-- Byte `k` of the packed codes is code `k` (R78). -/
theorem extractLsb'_packCodes (codes : DigitBuffer) (k : Fin 6) :
    (packCodes codes).extractLsb' (8 * k.val) 8 = codes[k] := by
  ext i hi
  simp only [packCodes, BitVec.getElem_extractLsb', BitVec.getLsbD_append]
  grind

/-- Settles O25: the response packs the codes of the renderer. -/
theorem renderRespondsWithCodes : Obligations.RenderRespondsWithCodes :=
  fun _ v => ⟨_, rfl, extractLsb'_packCodes (renderValue v)⟩

end Sys2Proof.Machine

/-! PROOFS. The statements about the link commands: what ACQUIRE does from an idle link, how many bus events each command
emits, and what a cycle with no byte does to the devices. -/

namespace Sys2Proof.Machine

/-- Settles O18: ACQUIRE succeeds with CsLow as its one event, on which no device moves. -/
theorem acquireOpensCycle : Obligations.AcquireOpensCycle :=
  fun _ h => exec_acquire_of_idle h

/-! The number of events. -/

/-- No error has the status of success (R200). -/
theorem errorStatus_ne_zero (e : ErrorCode) : errorStatus e ≠ 0 := by
  cases e <;> decide

/-- Settles O37: an error emits nothing and its status is not OK, a success emits its events. -/
theorem eventCountsAreFixed : Obligations.EventCountsAreFixed := by
  intro i s
  cases he : instrError s.link i with
  | some e =>
    exact ⟨raiseError e s, ⟨errorStatus e, 0⟩, [], by rw [exec_eq, he], rfl, (List.append_nil _).symm,
      (if_neg (errorStatus_ne_zero e)).symm⟩
  | none =>
    exact ⟨_, ⟨okStatus, successResult s i⟩, successEvents i, exec_of_instrError_none he, rfl, rfl,
      (length_successEvents i).trans (if_pos rfl).symm⟩

/-! A cycle with no byte. -/

/-- A second rising select writes the same register with the same byte (R55). -/
theorem Chain.latch_latch (c : Chain) : c.latch.latch = c.latch := by
  refine Chain.ext_dev fun p => Device.ext_reg (by simp) fun a => ?_
  simp only [Chain.dev_latch, Device.reg_latch, Device.latch_sr]
  split <;> rfl

/-- A cycle shifts its bytes in and then latches them (R53 to R55). -/
theorem drive_cycleOf (c : Chain) (bs : List Byte) : c.drive (cycleOf bs) = (c.drive (bs.map .byte)).latch := by
  simp [cycleOf]

/-- ACQUIRE and RELEASE from an idle link are the cycle with no byte (R243). -/
theorem execAll_emptyCycle {s : State} (h : s.link = .idle) :
    execAll [.acquire, .release] s = .next (commandSuccess (cycleOf []) .idle 0 s) :=
  execAll_rawCycle [] h

/-- After any cycle, a cycle with no byte latches what is latched already (R243). -/
theorem drive_cycleOf_nil_after_cycle (c : Chain) (bs : List Byte) :
    (c.drive (cycleOf bs)).drive (cycleOf []) = c.drive (cycleOf bs) := by
  rw [drive_cycleOf _ [], drive_cycleOf c bs, List.map_nil, Chain.drive_nil, Chain.latch_latch]

/-- Settles O45: the empty cycle is one latch, and the cycle of a SEND has latched already. -/
theorem emptyCycleLatchesAgain : Obligations.EmptyCycleLatchesAgain := by
  refine ⟨fun s h => ⟨_, execAll_emptyCycle h, rfl, rfl, fun p => ?_⟩, fun s sl r v hr h => ?_⟩
  · simp [drive_cycleOf]
  · exact ⟨_, _, exec_send_of_idle hr h, execAll_emptyCycle rfl,
      drive_cycleOf_nil_after_cycle s.chain (frame sl r v)⟩

end Sys2Proof.Machine

/-! PROOFS. The statements about the chain as a router: which device and which register a SEND reaches. -/

namespace Sys2Proof.Machine

/-- Settles O21: SEND is one cycle around its frame, which reaches the addressed device alone. -/
theorem sendRoutesToItsSlot : Obligations.SendRoutesToItsSlot := by
  intro s sl r v hr h
  refine ⟨_, exec_send_of_idle hr h, rfl, rfl, rfl, rfl, ?_, fun p => ⟨?_, fun a => ?_⟩⟩
  · rw [commandSuccess_trace, frame_eq_tableFrame]
  · rw [commandSuccess_chain, sr_drive_frame]
    rfl
  · rw [commandSuccess_chain, reg_drive_frame, wireAddr_bytePair]

end Sys2Proof.Machine

/-! PROOFS. The statements about the display controller: which registers CONFIG, SETDIGIT and SHOW write, and what the digits
show afterwards. -/

namespace Sys2Proof.Machine

/-- From an idle link a command with no error there succeeds. -/
theorem exec_of_idle {i : Instr} {s : State} (he : instrError .idle i = none) (h : s.link = .idle) :
    exec i s = .next (commandSuccess (successEvents i) (successLink .idle i) (successResult s i) s) := by
  rw [exec_of_instrError_none (by rw [h, he]), h]

/-! Frames one after another to the same slot. -/

/-- The shift registers hold what the last frame put there (R59, R120). -/
theorem sr_drive_frames (c : Chain) (sl : Slot) {cmds : List (Byte × Byte)} {w : Byte × Byte}
    (hw : cmds.getLast? = some w) (p : Position) :
    ((c.drive (cmds.flatMap fun w => cycleOf (frame sl w.1 w.2))).dev p).sr =
      if p = pos sl then bytePair w.1 w.2 else 0 := by
  obtain ⟨ws, rfl⟩ := List.getLast?_eq_some_iff.1 hw
  simp [sr_drive_frame]

/-- When no two frames address the same register, each of them leaves its value in its own (R123). -/
theorem reg_drive_frames_of_mem (c : Chain) (sl : Slot) {cmds : List (Byte × Byte)} {r v : Byte} (hw : (r, v) ∈ cmds)
    (hdistinct : (cmds.map fun w => wireAddr (bytePair w.1 w.2)).Nodup) (h0 : r.extractLsb' 0 4 ≠ 0) :
    ((c.drive (cmds.flatMap fun w => cycleOf (frame sl w.1 w.2))).dev (pos sl)).reg (r.extractLsb' 0 4) = v := by
  rw [← wireAddr_bytePair r v] at h0 ⊢
  induction cmds generalizing c with
  | nil => simp at hw
  | cons x xs ih =>
    obtain ⟨hx, hxs⟩ := List.nodup_cons.1 hdistinct
    rw [List.flatMap_cons, Chain.drive_append]
    rcases List.mem_cons.1 hw with rfl | hw
    · rw [reg_drive_frames_of_not_mem _ _ _ _ _ fun _ => hx, reg_drive_frame, if_pos ⟨rfl, rfl, h0⟩]
    · exact ih _ hw hxs

/-! CONFIG. -/

/-- The four writes of CONFIG with their addresses and values (R80, R141). -/
theorem configWrites_eq :
    configWrites = [(0x09, 0xFF), (0x0B, 0x05), (0x0A, Config.cfgIntensity), (0x0C, 0x01)] := rfl

/-- The register a write of CONFIG addresses holds its value afterwards (R140). -/
theorem reg_drive_config_of_mem (c : Chain) (sl : Slot) {r v : Byte} (hw : (r, v) ∈ configWrites)
    (h0 : r.extractLsb' 0 4 ≠ 0) :
    ((c.drive (successEvents (.config sl))).dev (pos sl)).reg (r.extractLsb' 0 4) = v :=
  reg_drive_frames_of_mem c sl hw (by rw [wireAddr_configWrites]; decide) h0

/-- CONFIG writes Decode, ScanLimit, Intensity and Shutdown of its slot's device and nothing else (R140, R141). -/
theorem reg_drive_config (c : Chain) (sl : Slot) (p : Position) (a : BitVec 4) :
    ((c.drive (successEvents (.config sl))).dev p).reg a =
      if p = pos sl ∧ a = 0x9 then 0xFF
      else if p = pos sl ∧ a = 0xB then 0x05
      else if p = pos sl ∧ a = 0xA then Config.cfgIntensity
      else if p = pos sl ∧ a = 0xC then 0x01
      else (c.dev p).reg a := by
  split_ifs with h9 hB hA hC
  · obtain ⟨rfl, rfl⟩ := h9
    exact reg_drive_config_of_mem c sl (r := 0x09) (by simp [configWrites_eq]) (by decide)
  · obtain ⟨rfl, rfl⟩ := hB
    exact reg_drive_config_of_mem c sl (r := 0x0B) (by simp [configWrites_eq]) (by decide)
  · obtain ⟨rfl, rfl⟩ := hA
    exact reg_drive_config_of_mem c sl (r := 0x0A) (by simp [configWrites_eq]) (by decide)
  · obtain ⟨rfl, rfl⟩ := hC
    exact reg_drive_config_of_mem c sl (r := 0x0C) (by simp [configWrites_eq]) (by decide)
  · refine reg_drive_frames_of_not_mem c sl configWrites p a fun hp => ?_
    rw [wireAddr_configWrites]
    simp_all

/-- Settles O22: the four frames as one list, of which each writes its own register. -/
theorem configWritesFourSettings : Obligations.ConfigWritesFourSettings := by
  intro s sl h
  refine ⟨_, exec_of_idle rfl h, rfl, rfl, rfl, rfl, ?_,
    fun p => ⟨sr_drive_frames s.chain sl (cmds := configWrites) rfl p, reg_drive_config s.chain sl p⟩⟩
  simp [successEvents, configWrites_eq, frame_eq_tableFrame]

/-! SETDIGIT. -/

/-- SETDIGIT's register byte (R146). -/
theorem digitAddr_eq (p : BitVec 3) : digitAddr p = 0x01 + p.zeroExtend 8 := by
  revert p; decide

/-- The register a device decodes from it, which is never NoOp (R146). -/
theorem digitAddr_extractLsb' (p : BitVec 3) :
    (digitAddr p).extractLsb' 0 4 = 1 + p.zeroExtend 4 ∧ (1 + p.zeroExtend 4 : BitVec 4) ≠ 0 := by
  revert p; decide

/-- SETDIGIT writes its digit register on its slot's device and nothing else (R145). -/
theorem reg_drive_setDigit (c : Chain) (sl : Slot) (p : BitVec 3) (code : Byte) (q : Position) (a : BitVec 4) :
    ((c.drive (successEvents (.setDigit sl p code))).dev q).reg a =
      if q = pos sl ∧ a = 1 + p.zeroExtend 4 then code else (c.dev q).reg a := by
  obtain ⟨haddr, h0⟩ := digitAddr_extractLsb' p
  have hwrite : a = 1 + p.zeroExtend 4 ∧ a ≠ 0 ↔ a = 1 + p.zeroExtend 4 := and_iff_left_of_imp fun ha => ha ▸ h0
  simp only [successEvents, reg_drive_frame, wireAddr_bytePair, haddr, hwrite]

/-- Settles O23: one frame to digit register `p`. -/
theorem setDigitWritesItsDigit : Obligations.SetDigitWritesItsDigit := by
  intro s sl p code h
  refine ⟨_, exec_of_idle rfl h, rfl, rfl, rfl, rfl, ?_, fun q => ⟨?_, reg_drive_setDigit s.chain sl p code q⟩⟩
  · rw [commandSuccess_trace, successEvents, frame_eq_tableFrame, digitAddr_eq]
  · rw [commandSuccess_chain, successEvents, sr_drive_frame, digitAddr_eq]
    rfl

/-! SHOW. -/

/-- SHOW writes code `k` to digit register `k` of its slot's device (R150). -/
theorem reg_drive_show_digit (c : Chain) (sl : Slot) (v : Value) (k : Fin 6) :
    ((c.drive (successEvents (.showValue sl v))).dev (pos sl)).reg (BitVec.ofNat 4 (k.val + 1)) = (renderValue v)[k] := by
  have hw : (digitAddr (BitVec.ofNat 3 k.val), (renderValue v)[k]) ∈ showWrites (renderValue v) :=
    List.mem_map_of_mem (by revert k; decide)
  have haddr : ∀ k : Fin 6, (digitAddr (BitVec.ofNat 3 k.val)).extractLsb' 0 4 = BitVec.ofNat 4 (k.val + 1) ∧
      BitVec.ofNat 4 (k.val + 1) ≠ 0 := by decide
  obtain ⟨hk, h0⟩ := haddr k
  rw [← hk] at h0 ⊢
  exact reg_drive_frames_of_mem c sl hw (by rw [wireAddr_showWrites]; decide) h0

/-- SHOW keeps every register but Digit0 to Digit5 of its slot's device (R150). -/
theorem reg_drive_show_of_not_mem (c : Chain) (sl : Slot) (v : Value) (p : Position) (a : BitVec 4)
    (h : p = pos sl → a ∉ [0x1#4, 0x2#4, 0x3#4, 0x4#4, 0x5#4, 0x6#4]) :
    ((c.drive (successEvents (.showValue sl v))).dev p).reg a = (c.dev p).reg a :=
  reg_drive_frames_of_not_mem c sl (showWrites (renderValue v)) p a (by rwa [wireAddr_showWrites])

/-- The last write of SHOW is Digit5 (R151). -/
theorem getLast?_showWrites (codes : DigitBuffer) : (showWrites codes).getLast? = some (0x06#8, codes[5]) := rfl

/-- Settles O24: the six frames as one list, of which each writes its own register. -/
theorem showWritesSixDigits : Obligations.ShowWritesSixDigits := by
  intro s sl v h
  refine ⟨_, exec_of_idle rfl h, rfl, rfl, rfl, rfl, ?_,
    fun p => ⟨sr_drive_frames s.chain sl (getLast?_showWrites (renderValue v)) p, fun a => ?_⟩⟩
  · simp [successEvents, showWrites, Config.showOrder, frame_eq_tableFrame, digitAddr, Config.regAddr]
  · rw [commandSuccess_chain]
    have hdigit := reg_drive_show_digit s.chain sl v
    by_cases hp : p = pos sl
    · subst hp
      rw [if_neg (not_not.2 rfl)]
      split_ifs with h1 h2 h3 h4 h5 h6
      · exact h1 ▸ hdigit 0
      · exact h2 ▸ hdigit 1
      · exact h3 ▸ hdigit 2
      · exact h4 ▸ hdigit 3
      · exact h5 ▸ hdigit 4
      · exact h6 ▸ hdigit 5
      · exact reg_drive_show_of_not_mem s.chain sl v (pos sl) a fun _ => by simpa using ⟨h1, h2, h3, h4, h5, h6⟩
    · rw [if_pos hp]
      exact reg_drive_show_of_not_mem s.chain sl v p a fun hp' => absurd hp' hp

/-- SETDIGITs of the codes of some digits, one after another, emit the frames SHOW has for these digits (R153). -/
theorem execAll_setDigits (sl : Slot) (codes : DigitBuffer) (ks : List (Fin 6)) (es : List BusEvent) (r : BitVec 48)
    (s : State) :
    ∃ q, execAll (ks.map fun k => .setDigit sl (BitVec.ofNat 3 k.val) codes[k]) (commandSuccess es .idle r s) =
      .next (commandSuccess
        (es ++ (ks.map fun k => (digitAddr (BitVec.ofNat 3 k.val), codes[k])).flatMap fun w => cycleOf (frame sl w.1 w.2))
        .idle q s) := by
  induction ks generalizing es r with
  | nil => exact ⟨r, by simp [execAll]⟩
  | cons k ks ih =>
    obtain ⟨q, hq⟩ := ih (es ++ cycleOf (frame sl (digitAddr (BitVec.ofNat 3 k.val)) codes[k])) 0
    refine ⟨q, ?_⟩
    rw [List.map_cons, execAll, exec_of_idle rfl rfl, commandSuccess_commandSuccess]
    simpa [successEvents, successLink, successResult] using hq

/-- Settles O49: RENDER emits nothing, and the six SETDIGITs emit the frames of SHOW. -/
theorem showIsRenderThenSetDigits : Obligations.ShowIsRenderThenSetDigits := by
  intro s sl v h
  obtain ⟨q, hq⟩ := execAll_setDigits sl (renderValue v) Config.showOrder [] (packCodes (renderValue v)) s
  refine ⟨_, commandSuccess (successEvents (.showValue sl v)) .idle q s, exec_of_idle rfl h, ?_, rfl, rfl, rfl, rfl⟩
  rw [execAll, exec_of_idle rfl h]
  exact hq

/-! What the digits show. -/

/-- The registers above the digit registers decide which digits are ready to show their codes (R56). -/
theorem Device.settings_congr {d e : Device} (h : ∀ a, 0x8 < a → e.reg a = d.reg a) :
    e.poweredOn = d.poweredOn ∧ e.lampTest = d.lampTest ∧ (∀ k, e.decodes k = d.decodes k) ∧
    e.scanLimit = d.scanLimit := by
  simp only [Device.poweredOn, Device.lampTest, Device.decodes, Device.scanLimit, h 0x9 (by decide), h 0xB (by decide),
    h 0xC (by decide), h 0xF (by decide), implies_true, and_self]

/-- A digit that was ready still shows the code in its register when only digit registers have been written (R58). -/
theorem Device.displays_of_ready_of_settings {d e : Device} {k : Fin 8} (h : ∀ a, 0x8 < a → e.reg a = d.reg a)
    (hp : d.poweredOn = true) (ht : d.lampTest = false) (hd : d.decodes k = true) (hs : k.val ≤ d.scanLimit.toNat) :
    e.displays k = appearance (e.digitReg k) := by
  obtain ⟨hp', ht', hd', hs'⟩ := Device.settings_congr h
  exact Device.displays_of_ready (hp'.trans hp) (ht'.trans ht) ((hd' k).trans hd) (hs' ▸ hs)

/-- What CONFIG makes of a device `d`: `e` is powered on, decodes every digit and scans digits 0 to 5; the lamp test and the
digit registers are those of `d` (R140, R141, R143). -/
structure ConfiguredFrom (d e : Device) : Prop where
  poweredOn : e.poweredOn = true
  decodes : ∀ k, e.decodes k = true
  scanLimit : e.scanLimit.toNat = 5
  lampTest : e.lampTest = d.lampTest
  digitReg : ∀ k, e.digitReg k = d.digitReg k

/-- CONFIG configures its slot's device. -/
theorem configuredFrom_drive_config (c : Chain) (sl : Slot) :
    ConfiguredFrom (c.dev (pos sl)) ((c.drive (successEvents (.config sl))).dev (pos sl)) where
  poweredOn := by rw [Device.poweredOn, reg_drive_config]; simp
  decodes k := by
    have hbits : ∀ k : Fin 8, (0xFF : Byte).getLsbD k = true := by decide
    rw [Device.decodes, reg_drive_config, if_pos ⟨rfl, rfl⟩, hbits]
  scanLimit := by rw [Device.scanLimit, reg_drive_config]; simp
  lampTest := by rw [Device.lampTest, reg_drive_config]; simp [Device.lampTest]
  digitReg k := by
    have hk : ∀ k : Fin 8, BitVec.ofNat 4 (k + 1) ∉ [0x9#4, 0xB#4, 0xA#4, 0xC#4] := by decide
    refine reg_drive_frames_of_not_mem c sl configWrites _ _ fun _ => ?_
    rw [wireAddr_configWrites]
    exact hk k

/-- Settles O51: the conditions of R58 on a configured device. -/
theorem configSetsDisplayConditions : Obligations.ConfigSetsDisplayConditions := by
  intro s sl h
  have hconf := configuredFrom_drive_config s.chain sl
  exact ⟨_, exec_of_idle rfl h, hconf.poweredOn, hconf.lampTest,
    fun k hk => ⟨hconf.decodes k, hk.trans hconf.scanLimit.ge⟩, hconf.digitReg⟩

/-- SETDIGIT keeps the registers above the digit registers (R146). -/
theorem reg_drive_setDigit_settings (c : Chain) (sl : Slot) (p : BitVec 3) (code : Byte) (a : BitVec 4) (ha : 0x8 < a) :
    ((c.drive (successEvents (.setDigit sl p code))).dev (pos sl)).reg a = (c.dev (pos sl)).reg a := by
  have hp : ∀ p : BitVec 3, (1 + p.zeroExtend 4 : BitVec 4) ≤ 0x8 := by decide
  rw [reg_drive_setDigit, if_neg]
  rintro ⟨-, rfl⟩
  exact absurd (hp p) (BitVec.not_le.2 ha)

/-- SETDIGIT puts its code in its digit's register (R147). -/
theorem digitReg_drive_setDigit (c : Chain) (sl : Slot) (p : BitVec 3) (code : Byte) :
    ((c.drive (successEvents (.setDigit sl p code))).dev (pos sl)).digitReg p.toFin = code := by
  have haddr : ∀ p : BitVec 3, BitVec.ofNat 4 (p.toFin + 1) = 1 + p.zeroExtend 4 := by decide
  rw [Device.digitReg, reg_drive_setDigit, if_pos ⟨rfl, haddr p⟩]

/-- Settles O59: CONFIG's scan limit is 5, and SETDIGIT keeps it. -/
theorem configuredScanLimitHidesTopDigits : Obligations.ConfiguredScanLimitHidesTopDigits := by
  intro s sl p code h hlamp hp
  have hconf := configuredFrom_drive_config s.chain sl
  have hlamp' := hconf.lampTest.trans hlamp
  obtain ⟨hpower, htest, -, hscan⟩ :=
    Device.settings_congr (reg_drive_setDigit_settings (s.chain.drive (successEvents (.config sl))) sl p code)
  have hbeyond : 5 < p.toFin.val := hp
  exact ⟨_, _, exec_of_idle rfl h, exec_of_idle rfl rfl, digitReg_drive_setDigit _ sl p code,
    Device.displays_of_unscanned hconf.poweredOn hlamp' (hconf.scanLimit ▸ hbeyond),
    Device.displays_of_unscanned (hpower.trans hconf.poweredOn) (htest.trans hlamp')
      (hscan ▸ hconf.scanLimit ▸ hbeyond)⟩

/-- A code outside both of U9's ranges, 0x0A to 0x0E and those with a bit of 6:4 set, is not left open. -/
theorem openCode_eq_false {c : Byte} (hbits : c &&& 0x70 = 0) (hrange : ¬ (0x0A ≤ c ∧ c ≤ 0x0E)) :
    openCode c = false := by
  revert c; decide

/-- Settles O60: the digit stays ready, and its register holds the code. -/
theorem setDigitShowsItsCode : Obligations.SetDigitShowsItsCode := by
  intro s sl p code h hp ht hd hs hbits hrange
  refine ⟨_, exec_of_idle rfl h, ?_⟩
  rw [commandSuccess_chain,
    Device.displays_of_ready_of_settings (reg_drive_setDigit_settings s.chain sl p code) hp ht hd hs,
    digitReg_drive_setDigit, appearance_of_not_open (openCode_eq_false hbits hrange)]

/-! The codes the renderer makes, as the display shows them. -/

/-- The blanking loop turns digit 5, and then digit 4 if digit 5 was blanked; the point is added to digit 3 (R161). -/
theorem renderValue_eq (v : Value) :
    renderValue v = #v[digitCode v 0, digitCode v 1, digitCode v 2, 0x80 ||| digitCode v 3,
      if digit v 4 = 0 ∧ digit v 5 = 0 then 0x0F else digitCode v 4, if digit v 5 = 0 then 0x0F else digitCode v 5] := by
  simp only [renderValue, renderWith, Config.dpDigit, Config.blankSpan, blankOrder, plainCodes,
    pointFlag, BitVec.or_comm]
  by_cases h5 : digit v 5 = 0
  · by_cases h4 : digit v 4 = 0
    · simp [blankTurn, blankCode, h5, h4]
    · simp [blankTurn, blankCode, h5, h4]
  · simp [blankTurn, h5]

/-- The code of each digit: blank for a leading zero of digits 5 and 4, the point on digit 3 (R161, R163, R164). -/
theorem getElem_renderValue (v : Value) (k : Fin 6) :
    (renderValue v)[k] =
      if 4 ≤ k.val ∧ digit v k = 0 ∧ digit v 5 = 0 then 0x0F
      else if k.val = 3 then 0x80 ||| digitCode v k
      else digitCode v k := by
  rw [renderValue_eq]
  fin_cases k <;> simp

theorem digit_lt_ten (v : Value) (k : Nat) : digit v k < 10 := Nat.mod_lt _ (by decide)

/-- How the font reads the code of each digit (R57). -/
theorem font_renderValue (v : Value) (k : Fin 6) :
    font (renderValue v)[k] =
      if 4 ≤ k.val ∧ digit v k = 0 ∧ digit v 5 = 0 then ⟨.blank, false⟩
      else ⟨.digit ⟨digit v k, digit_lt_ten v k⟩, decide (k.val = 3)⟩ := by
  obtain ⟨hdigits, hblank, -⟩ := fontOfRenderedCodes
  obtain ⟨hplain, hpoint⟩ := hdigits ⟨digit v k, digit_lt_ten v k⟩
  rw [getElem_renderValue]
  split_ifs with hz h3
  · exact hblank
  · rw [decide_eq_true h3]; exact hpoint
  · rw [decide_eq_false h3]; exact hplain

/-- U9 leaves no code of the renderer open (R167). -/
theorem openCode_renderValue (v : Value) (k : Fin 6) : openCode (renderValue v)[k] = false := by
  have hcodes : ∀ d : Fin 10, openCode (BitVec.ofNat 8 d.val) = false ∧ openCode (0x80 ||| BitVec.ofNat 8 d.val) = false := by
    decide
  obtain ⟨hplain, hpoint⟩ := hcodes ⟨digit v k, digit_lt_ten v k⟩
  rw [getElem_renderValue]
  split_ifs
  · decide
  · exact hpoint
  · exact hplain

/-- SHOW makes a ready digit show the font's reading of its code (R58). -/
theorem displays_drive_show {c : Chain} {sl : Slot} {k : Fin 6} (v : Value) (hp : (c.dev (pos sl)).poweredOn = true)
    (ht : (c.dev (pos sl)).lampTest = false) (hd : (c.dev (pos sl)).decodes ⟨k.val, by omega⟩ = true)
    (hs : k.val ≤ (c.dev (pos sl)).scanLimit.toNat) :
    ((c.drive (successEvents (.showValue sl v))).dev (pos sl)).displays ⟨k.val, by omega⟩ =
      .glyph (font (renderValue v)[k]) := by
  have hsettings : ∀ a : BitVec 4, 0x8 < a → a ∉ [0x1#4, 0x2#4, 0x3#4, 0x4#4, 0x5#4, 0x6#4] := by decide
  rw [Device.displays_of_ready_of_settings
      (fun a ha => reg_drive_show_of_not_mem c sl v (pos sl) a fun _ => hsettings a ha) hp ht hd hs,
    Device.digitReg, reg_drive_show_digit, appearance_of_not_open (openCode_renderValue v k)]

/-- Settles O52: a ready digit shows its code. -/
theorem showIsVisibleOnConfiguredDevice : Obligations.ShowIsVisibleOnConfiguredDevice :=
  fun _ _ v _ h hp ht hd hs => ⟨_, exec_of_idle rfl h, displays_drive_show v hp ht hd hs⟩

/-- Settles O54: a configured device without lamp test is ready at digits 0 to 5, which then show the renderer's codes. -/
theorem shownValueReadsOnTheDisplay : Obligations.ShownValueReadsOnTheDisplay := by
  intro s sl v h hlamp
  have hconf := configuredFrom_drive_config s.chain sl
  refine ⟨_, _, exec_of_idle rfl h, exec_of_idle rfl rfl, fun k hk => ?_⟩
  have hshow := displays_drive_show (k := ⟨k.val, by omega⟩) v hconf.poweredOn (hconf.lampTest.trans hlamp)
    (hconf.decodes _) (hk.trans hconf.scanLimit.ge)
  refine ⟨_, hshow, ?_⟩
  rw [font_renderValue]
  split_ifs with hz
  · have h3 : k.val ≠ 3 := by rintro h3; rw [h3] at hz; simp at hz
    exact ⟨iff_of_false nofun h3, iff_of_true rfl hz, fun hne => absurd rfl hne⟩
  · exact ⟨decide_eq_true_iff, iff_of_false nofun hz, fun _ => ⟨_, rfl, rfl⟩⟩

end Sys2Proof.Machine

/-! PROOFS. The statements about the number renderer: its blanking loop as a closed form, which codes it makes, and how they
read. -/

namespace Sys2Proof.Machine

/-! The blanking loop as its closed form. -/

/-- The digits of `ks` before the first that is not zero: those the blanking loop blanks when it visits `ks`. -/
def leadingZeros (v : Value) (ks : List (Fin 6)) : List (Fin 6) := ks.takeWhile fun k => digit v k == 0

@[simp] theorem leadingZeros_nil (v : Value) : leadingZeros v [] = [] := rfl

theorem leadingZeros_cons_of_zero {v : Value} {k : Fin 6} (h : digit v k = 0) (ks : List (Fin 6)) :
    leadingZeros v (k :: ks) = k :: leadingZeros v ks :=
  List.takeWhile_cons_of_pos (beq_iff_eq.mpr h)

theorem leadingZeros_cons_of_ne_zero {v : Value} {k : Fin 6} (h : digit v k ≠ 0) (ks : List (Fin 6)) :
    leadingZeros v (k :: ks) = [] :=
  List.takeWhile_cons_of_neg (by simpa using h)

/-- Once a digit has ended the run of leading zeros, the loop changes nothing more (R161). -/
theorem foldl_blankTurn_of_not_leading (v : Value) (ks : List (Fin 6)) (codes : DigitBuffer) :
    ks.foldl (blankTurn v) (codes, false) = (codes, false) := by
  induction ks with
  | nil => rfl
  | cons k ks ih => exact ih

/-- The loop blanks the leading zeros among the digits it visits and keeps every other code (R161). -/
theorem getElem_foldl_blankTurn (v : Value) (ks : List (Fin 6)) (codes : DigitBuffer) (k : Fin 6) :
    (ks.foldl (blankTurn v) (codes, true)).1[k] = if k ∈ leadingZeros v ks then blankCode else codes[k] := by
  induction ks generalizing codes with
  | nil => simp
  | cons j ks ih =>
    by_cases hj : digit v j = 0
    · have hturn : blankTurn v (codes, true) j = (codes.set j blankCode, true) := by simp [blankTurn, hj]
      rw [List.foldl_cons, hturn, ih, leadingZeros_cons_of_zero hj]
      by_cases hk : k = j
      · simp [hk]
      · simp [hk, Fin.val_inj, Ne.symm hk]
    · have hturn : blankTurn v (codes, true) j = (codes, false) := by simp [blankTurn, hj]
      rw [List.foldl_cons, hturn, foldl_blankTurn_of_not_leading, leadingZeros_cons_of_ne_zero hj]
      simp

/-- In a descending list, a leading zero is a digit from which on upwards every digit of the list is zero. -/
theorem mem_leadingZeros_iff_of_descending (v : Value) {ks : List (Fin 6)} (h : ks.Pairwise (· > ·)) (k : Fin 6) :
    k ∈ leadingZeros v ks ↔ k ∈ ks ∧ ∀ i ∈ ks, k ≤ i → digit v i = 0 := by
  induction h with
  | nil => simp
  | @cons j ks hj _ ih =>
    by_cases hz : digit v j = 0
    · rw [leadingZeros_cons_of_zero hz, List.mem_cons, ih]
      grind
    · rw [leadingZeros_cons_of_ne_zero hz]
      grind

/-- The loop visits the leftmost `span` digits. -/
theorem mem_blankOrder {span : Nat} (h : span ≤ 6) (k : Fin 6) : k ∈ blankOrder span ↔ 6 - span ≤ k.val := by
  have hspans : ∀ n : Fin 7, ∀ k : Fin 6, k ∈ blankOrder n.val ↔ 6 - n.val ≤ k.val := by decide
  exact hspans ⟨span, by omega⟩ k

theorem blankOrder_descending (span : Nat) : (blankOrder span).Pairwise (· > ·) :=
  List.Pairwise.take (by decide)

/-- The digits the loop blanks are those of R169's `blank(k)`. -/
theorem mem_leadingZeros_blankOrder {span : Nat} (h : span ≤ 6) (v : Value) (k : Fin 6) :
    k ∈ leadingZeros v (blankOrder span) ↔ blankAt span v k := by
  rw [mem_leadingZeros_iff_of_descending v (blankOrder_descending span), mem_blankOrder h]
  refine and_congr_right fun hk => forall_congr' fun i => ?_
  rw [mem_blankOrder h]
  exact ⟨fun hi hki => hi (hk.trans hki) hki, fun hi _ => hi⟩

theorem getElem_plainCodes (v : Value) (k : Fin 6) : (plainCodes v)[k] = digitCode v k := by
  fin_cases k <;> rfl

/-- The code of each digit: blanked or plain, and the point added last (R161, R169). -/
theorem getElem_renderWith (dp : Fin 6) (span : Nat) (v : Value) (k : Fin 6) :
    (renderWith dp span v)[k] =
      (if k ∈ leadingZeros v (blankOrder span) then blankCode else digitCode v k) |||
        (if k = dp then pointFlag else 0) := by
  rw [← getElem_plainCodes, ← getElem_foldl_blankTurn]
  by_cases hk : k = dp
  · simp [renderWith, hk]
  · simp [renderWith, hk, Fin.val_inj, Ne.symm hk]

/-- Settles O38: the loop blanks exactly the digits of `blank(k)`, before the point is added. -/
theorem renderLoopIsClosedForm : Obligations.RenderLoopIsClosedForm := by
  refine ⟨fun dp span v h k => ?_, fun v => rfl⟩
  rw [getElem_renderWith, ← mem_leadingZeros_blankOrder h]
  exact ⟨fun hk => by rw [if_pos hk]; rfl, fun hk => by rw [if_neg hk]; rfl⟩

/-! Which codes the renderer makes. -/

/-- What holds of the ten digits and their codes holds of every digit of a value and its code (R160). -/
theorem forall_digitCode {P : Nat → Byte → Prop} (h : ∀ d : Fin 10, P d (BitVec.ofNat 8 d)) (v : Value) (k : Nat) :
    P (digit v k) (digitCode v k) :=
  h ⟨digit v k, digit_lt_ten v k⟩

theorem digitCode_le_nine (v : Value) (k : Nat) : digitCode v k ≤ 0x09 :=
  forall_digitCode (P := fun _ c => c ≤ 0x09) (by decide) v k

theorem digitCode_ne_blank (v : Value) (k : Nat) : digitCode v k ≠ 0x0F :=
  forall_digitCode (P := fun _ c => c ≠ 0x0F) (by decide) v k

/-- The point moves the ten digit codes up by its flag (R163). -/
theorem pointed_digitCode_bounds (v : Value) (k : Nat) :
    0x80 ≤ 0x80 ||| digitCode v k ∧ 0x80 ||| digitCode v k ≤ 0x89 :=
  forall_digitCode (P := fun _ c => 0x80 ≤ 0x80 ||| c ∧ 0x80 ||| c ≤ 0x89) (by decide) v k

/-- A code that is blanked under a guard is the blank under that guard alone. -/
theorem ite_blank_eq_blank_iff {p : Prop} [Decidable p] (v : Value) (k : Nat) :
    (if p then 0x0F else digitCode v k) = 0x0F ↔ p :=
  ite_eq_left_iff.trans ⟨fun h => by_contra fun hp => digitCode_ne_blank v k (h hp), absurd⟩

theorem ite_blank_eq_digitCode_of_ne {p : Prop} [Decidable p] {v : Value} {k : Nat}
    (h : (if p then 0x0F else digitCode v k) ≠ 0x0F) : (if p then 0x0F else digitCode v k) = digitCode v k :=
  if_neg fun hp => h (if_pos hp)

/-- Settles O39: digit 5 or 4 is blank by its guard alone, as no digit code is the blank. -/
theorem leadingZeroBlanking : Obligations.LeadingZeroBlanking := by
  intro v
  have h1 : digitCode v 1 = BitVec.ofNat 8 (v.toNat / 10 % 10) := rfl
  have h0 : digitCode v 0 = BitVec.ofNat 8 (v.toNat % 10) := by simp [digitCode, digit]
  rw [renderValue_eq, ← h1, ← h0]
  exact ⟨ite_blank_eq_blank_iff v 5, (ite_blank_eq_blank_iff v 4).trans and_comm, ite_blank_eq_digitCode_of_ne,
    ite_blank_eq_digitCode_of_ne, rfl, rfl, rfl, rfl⟩

/-- A digit that may be blanked is a digit code or the blank. -/
theorem ite_blank_le_nine_or_eq_blank {p : Prop} [Decidable p] (v : Value) (k : Nat) :
    (if p then 0x0F else digitCode v k) ≤ 0x09 ∨ (if p then 0x0F else digitCode v k) = 0x0F := by
  split
  · exact .inr rfl
  · exact .inl (digitCode_le_nine v k)

/-- Settles O41: each code is a digit code, with the point on digit 3, or the blank on digits 4 and 5. -/
theorem renderCodeSet : Obligations.RenderCodeSet := by
  intro v
  obtain ⟨hlow, hhigh⟩ := pointed_digitCode_bounds v 3
  rw [renderValue_eq]
  exact ⟨digitCode_le_nine v 0, digitCode_le_nine v 1, digitCode_le_nine v 2, hlow, hhigh,
    ite_blank_le_nine_or_eq_blank v 4, ite_blank_le_nine_or_eq_blank v 5⟩

/-! How the codes read. -/

/-- The six lowest digits do not see the millions (R165). -/
theorem digit_mod_million (v : Value) {k : Nat} (hk : k < 6) :
    digit (BitVec.ofNat 32 (v.toNat % 1000000)) k = digit v k := by
  have hv : (BitVec.ofNat 32 (v.toNat % 1000000)).toNat = v.toNat % 1000000 := by
    rw [BitVec.toNat_ofNat]
    omega
  rw [digit, digit, hv]
  interval_cases k <;> omega

/-- Settles O40: the renderer reads the six lowest digits only. -/
theorem renderDropsMillions : Obligations.RenderDropsMillions := by
  intro v
  simp [renderValue_eq, digitCode, digit_mod_million]

theorem shownDigit_digitCode (v : Value) (k : Nat) : shownDigit (digitCode v k) = digit v k :=
  forall_digitCode (P := fun d c => shownDigit c = d) (by decide) v k

theorem shownDigit_pointed_digitCode (v : Value) (k : Nat) : shownDigit (0x80 ||| digitCode v k) = digit v k :=
  forall_digitCode (P := fun d c => shownDigit (0x80 ||| c) = d) (by decide) v k

/-- Every code of the renderer shows its digit: what is blanked is a zero (R164, R166). -/
theorem shownDigit_renderValue (v : Value) {k : Nat} (hk : k < 6) : shownDigit (renderValue v)[k] = digit v k := by
  have hcode := getElem_renderValue v ⟨k, hk⟩
  rw [Fin.getElem_fin] at hcode
  rw [hcode]
  split_ifs with hz
  · exact hz.2.1.symm
  · exact shownDigit_pointed_digitCode v k
  · exact shownDigit_digitCode v k

/-- Settles O42: the six codes show the six lowest digits of the value. -/
theorem renderedCodesReadAsTheValue : Obligations.RenderedCodesReadAsTheValue := by
  intro v
  simp only [shownDigit_renderValue, digit]
  omega

end Sys2Proof.Machine

/-! PROOFS. The statements about errors and STATUS: the first failing check is a command's one outcome, an error sets its sticky
bit and only a reset clears one, and STAT reads them all. -/

namespace Sys2Proof.Machine

/-! The checks a word fails are the error its command raises. -/

/-- Checks 5 and 6 by the command an op value selects (R204). -/
theorem linkChecks_of_opField {w : Command} {o : Opcode} (h : opField w = o.code) (l : Link) :
    linkChecks w l =
      if o ∈ [.acquire, .send, .config, .setDigit, .showValue] ∧ l = .acquired then some .linkBusy
      else if o ∈ [.xfer, .release] ∧ l = .idle then some .linkIdle
      else none := by
  have hbusy : o.code ∈ [0x1#4, 0x4#4, 0x5#4, 0x6#4, 0x8#4] ↔ o ∈ [.acquire, .send, .config, .setDigit, .showValue] := by
    cases o <;> decide
  have hidle : o.code ∈ [0x2#4, 0x3#4] ↔ o ∈ [.xfer, .release] := by cases o <;> decide
  simp only [linkChecks, h, hbusy, hidle]

/-- A well-formed command fails its link-state check or none (R204). -/
theorem instrError_of_wellFormed {i : Instr} (hw : i.wellFormed = true) (l : Link) :
    instrError l i =
      if i.opcode ∈ [.acquire, .send, .config, .setDigit, .showValue] ∧ l = .acquired then some .linkBusy
      else if i.opcode ∈ [.xfer, .release] ∧ l = .idle then some .linkIdle
      else none := by
  cases i with
  | send sl r v =>
    have hr : legalReg r = true := hw
    simp [instrError, Instr.opcode, hr]
  | _ => simp [instrError, Instr.opcode]

/-- A word that decodes can fail no check but those of its command (R205). -/
theorem commandChecks_of_decode_ok {w : Command} {i : Instr} (h : decode w = .ok i) (l : Link) :
    commandChecks w l = instrError l i := by
  obtain ⟨hop, hchecks, -⟩ := decode_eq_ok_iff.1 h
  rw [commandChecks, hchecks, instrError_of_wellFormed (encodeOfDecode w i h).1]
  exact linkChecks_of_opField hop l

/-- A word that does not decode reports its decode error, whatever the link state (R205). -/
theorem commandChecks_of_decode_error {w : Command} {e : ErrorCode} (h : decode w = .error e) (l : Link) :
    commandChecks w l = some e := by
  rw [commandChecks, ((decodingFollowsTheChecks w).1 e).1 h]

/-! The step that takes a command word, by its checks. -/

/-- A word that fails a check raises the first one it fails, with the ports cleared and the move taken (R205). -/
theorem step_of_commandChecks_some {s : State} {w : Command} {rest : List HostMove} {e : ErrorCode}
    (h : s.host = .present w :: rest) (he : commandChecks w s.link = some e) :
    step s = .next (raiseError e { s with response := none, trace := [], host := rest }) := by
  cases hd : decode w with
  | error e' =>
    obtain rfl : e' = e := Option.some.inj ((commandChecks_of_decode_error hd s.link).symm.trans he)
    exact step_of_decode_error h hd
  | ok i =>
    rw [commandChecks_of_decode_ok hd] at he
    rw [step_of_decode_ok h hd, exec_eq, he]

/-- A word that passes every check runs a command to its success (R205). -/
theorem step_of_commandChecks_none {s : State} {w : Command} {rest : List HostMove}
    (h : s.host = .present w :: rest) (hc : commandChecks w s.link = none) :
    ∃ es l result, step s =
      .next (commandSuccess es l result { s with response := none, trace := [], host := rest }) := by
  cases hd : decode w with
  | error e => simp [commandChecks_of_decode_error hd] at hc
  | ok i =>
    rw [commandChecks_of_decode_ok hd] at hc
    exact ⟨_, _, _, (step_of_decode_ok h hd).trans (exec_of_instrError_none hc)⟩

/-- Settles O7: the word fails a first check, which is the error of the step, or it passes them all and its command succeeds. -/
theorem firstFailingCheckIsTheOutcome : Obligations.FirstFailingCheckIsTheOutcome := by
  intro s w rest h
  cases hc : commandChecks w s.link with
  | some e => exact step_of_commandChecks_some h hc
  | none =>
    obtain ⟨es, l, result, hstep⟩ := step_of_commandChecks_none h hc
    exact ⟨_, result, hstep, rfl, rfl, rfl⟩

/-- Settles O27: a well-formed command has its link-state check only, and RENDER and STAT have none. -/
theorem linkStateChecks : Obligations.LinkStateChecks := by
  intro i s hw
  have herr := instrError_of_wellFormed hw s.link
  refine ⟨fun ho hl => ?_, fun ho hl => ?_, fun ho => ?_⟩
  · rw [exec_eq, herr, if_pos ⟨ho, hl⟩]
    rfl
  · rw [exec_eq, herr, if_neg (by simp [hl]), if_pos ⟨ho, hl⟩]
    rfl
  · have hnone : instrError s.link i = none := by
      rw [herr]
      rcases List.mem_pair.1 ho with ho | ho <;> simp [ho]
    exact ⟨_, _, exec_of_instrError_none hnone, rfl, rfl⟩

/-! The sticky bits and STATUS. -/

/-- Setting one sticky bit sets it and keeps the others (R202). -/
theorem Sticky.has_set (f : Sticky) (e e' : ErrorCode) : (f.set e).has e' = (decide (e' = e) || f.has e') := by
  cases e <;> cases e' <;> rfl

/-- The STATUS bit of an error's number is its sticky bit (R25, R200). -/
theorem getLsbD_status_errorStatus (s : State) (e : ErrorCode) :
    s.status.getLsbD (errorStatus e).toNat = s.sticky.has e := by
  rw [getLsbD_status]
  cases e <;> rfl

/-- The bits of STATUS that are not always zero, bit 0 first (R25). -/
def statusBits (l : Link) (f : Sticky) : List Bool :=
  [(linkBit l).getLsbD 0, f.illegal, f.slot, f.operand, f.busy, f.idle]

theorem getLsbD_status_eq_statusBits (s : State) (n : Nat) :
    s.status.getLsbD n = (statusBits s.link s.sticky).getD n false :=
  getLsbD_status s n

/-- An error sets the bit of its number among them and no other (R200). -/
theorem statusBits_set (l : Link) (f : Sticky) (e : ErrorCode) :
    statusBits l (f.set e) = (statusBits l f).set (errorStatus e).toNat true := by
  cases e <;> rfl

/-- Settles O8: the five codes, and STATUS bit by bit. -/
theorem errorCodeIsItsStatusBit : Obligations.ErrorCodeIsItsStatusBit := by
  refine ⟨rfl, rfl, rfl, rfl, rfl, fun s e => BitVec.eq_of_getLsbD_eq fun n hn => ?_⟩
  have hlen : (errorStatus e).toNat < (statusBits s.link s.sticky).length := by cases e <;> simp [errorStatus, statusBits]
  rw [← BitVec.twoPow_eq, BitVec.getLsbD_or, BitVec.getLsbD_twoPow, getLsbD_status_eq_statusBits,
    getLsbD_status_eq_statusBits, statusBits_set]
  by_cases he : (errorStatus e).toNat = n
  · subst he
    simp [hlen, hn]
  · simp [he]

/-- STAT responds with STATUS and changes nothing else (R206). -/
theorem exec_stat (s : State) :
    exec .stat s = .next { s with response := some ⟨okStatus, s.status.zeroExtend 48⟩ } := rfl

/-- Settles O26: the low byte of the result is STATUS, and LINK is its bit 0 (O9). -/
theorem statRespondsWithStatus : Obligations.StatRespondsWithStatus := by
  intro s
  refine ⟨_, exec_stat s, ?_, ?_, ?_⟩
  · ext n hn
    simp [BitVec.getLsbD_eq_getElem hn, show n < 48 by omega]
  · ext n hn
    simp
  · simpa using (statusFieldsReadAsNamed s).1

/-- A reset is taken between commands, with the ports cleared (R230). -/
theorem step_of_assertReset {s : State} {rest : List HostMove} (h : s.host = .assertReset :: rest) :
    step s = .next (applyReset { s with response := none, trace := [], host := rest }) := by
  rw [step, takeMove_cons h]

/-- A reset leaves every sticky bit clear (R230). -/
@[simp] theorem applyReset_sticky (s : State) : (applyReset s).sticky = .clear := rfl

/-- Settles O10: a word's step sets the sticky bit of its error (O7) or none, a reset clears them, and STAT reads STATUS. -/
theorem onlyResetClearsStickyBits : Obligations.OnlyResetClearsStickyBits := by
  refine ⟨fun s w rest h => ?_, fun s rest h => ?_, fun s => ?_⟩
  · cases hc : commandChecks w s.link with
    | some e =>
      refine ⟨_, step_of_commandChecks_some h hc, fun e' he' => ?_, fun e' he' => ?_⟩
      · simp [Sticky.has_set, he']
      · simp [Sticky.has_set, Option.some.inj he']
    | none =>
      obtain ⟨es, l, result, hstep⟩ := step_of_commandChecks_none h hc
      exact ⟨_, hstep, fun _ he => he, fun _ he => nomatch he⟩
  · refine ⟨_, step_of_assertReset h, fun e => ?_⟩
    rw [applyReset_sticky]
    cases e <;> rfl
  · refine ⟨_, _, exec_stat s, rfl, fun e => ?_⟩
    have hlt : (errorStatus e).toNat < 48 := by cases e <;> decide
    simp [hlt, getLsbD_status_errorStatus]

end Sys2Proof.Machine

/-! PROOFS. What a digit shows again after SLEEP and WAKE, and after a lamp test and TESTOFF. -/

namespace Sys2Proof.Machine

/-- Running one command alone. -/
theorem execAll_singleton (i : Instr) (s : State) : execAll [i] s = exec i s := by
  rw [execAll]
  cases exec i s <;> rfl

/-- `e` has the registers of `d`, but for register `a`, which holds `v`. -/
structure RegWritten (d e : Device) (a : BitVec 4) (v : Byte) : Prop where
  written : e.reg a = v
  kept : ∀ b, b ≠ a → e.reg b = d.reg b

/-- A frame to a display register writes it on its slot's device (R123). -/
theorem regWritten_drive_frame (c : Chain) (sl : Slot) (g : Reg) (v : Byte) (hg : g ≠ .noOp) :
    RegWritten (c.dev (pos sl)) ((c.drive (cycleOf (frame sl (Config.regAddr g) v))).dev (pos sl))
      ((Config.regAddr g).extractLsb' 0 4) v where
  written := (reg_drive_frame_regAddr c sl g v hg _).trans (if_pos rfl)
  kept b hb := (reg_drive_frame_regAddr c sl g v hg b).trans (if_neg hb)

/-! Bit 0 of Shutdown and of Test after a write of either (R56). -/

theorem RegWritten.poweredOn {d e : Device} {v : Byte} (h : RegWritten d e 0xC v) : e.poweredOn = v.getLsbD 0 :=
  congrArg (·.getLsbD 0) h.written

theorem RegWritten.lampTest {d e : Device} {v : Byte} (h : RegWritten d e 0xF v) : e.lampTest = v.getLsbD 0 :=
  congrArg (·.getLsbD 0) h.written

theorem RegWritten.poweredOn_kept {d e : Device} {v : Byte} (h : RegWritten d e 0xF v) : e.poweredOn = d.poweredOn :=
  congrArg (·.getLsbD 0) (h.kept 0xC (by decide))

theorem RegWritten.lampTest_kept {d e : Device} {v : Byte} (h : RegWritten d e 0xC v) : e.lampTest = d.lampTest :=
  congrArg (·.getLsbD 0) (h.kept 0xF (by decide))

/-- Of two writes of one register the second is the one seen. -/
theorem RegWritten.trans {d e f : Device} {a : BitVec 4} {v w : Byte} (h : RegWritten d e a v)
    (h' : RegWritten e f a w) : RegWritten d f a w where
  written := h'.written
  kept b hb := (h'.kept b hb).trans (h.kept b hb)

/-- Two SENDs to one display register, from an idle link (R121, R123). -/
theorem exec_send_send_of_idle {s : State} (sl : Slot) {g : Reg} (v w : Byte) (hg : g ≠ .noOp) (h : s.link = .idle) :
    ∃ t u, exec (.send sl (Config.regAddr g) v) s = .next t ∧ exec (.send sl (Config.regAddr g) w) t = .next u ∧
      RegWritten (s.chain.dev (pos sl)) (t.chain.dev (pos sl)) ((Config.regAddr g).extractLsb' 0 4) v ∧
      RegWritten (s.chain.dev (pos sl)) (u.chain.dev (pos sl)) ((Config.regAddr g).extractLsb' 0 4) w :=
  have hv := regWritten_drive_frame s.chain sl g v hg
  ⟨_, _, exec_send_of_idle (legalReg_regAddr g) h, exec_send_of_idle (legalReg_regAddr g) rfl, hv,
    hv.trans (regWritten_drive_frame _ sl g w hg)⟩

/-- A device in normal operation whose registers but Shutdown and Test are those of `d` shows the code of a digit that `d`
decodes and scans (R56, R58, R216). -/
theorem Device.displays_of_kept {d e : Device} {k : Fin 8} (hkeep : ∀ a, a ≠ 0xC → a ≠ 0xF → e.reg a = d.reg a)
    (hp : e.poweredOn = true) (ht : e.lampTest = false) (hd : d.decodes k = true) (hs : k.val ≤ d.scanLimit.toNat) :
    e.displays k = appearance (d.digitReg k) := by
  have haddr : ∀ k : Fin 8, BitVec.ofNat 4 (k + 1) ≠ 0xC ∧ BitVec.ofNat 4 (k + 1) ≠ 0xF := by decide
  have hdigit : e.digitReg k = d.digitReg k := hkeep _ (haddr k).1 (haddr k).2
  have hdecode : e.decodes k = d.decodes k := by rw [decodes, decodes, hkeep 0x9 (by decide) (by decide)]
  have hscan : e.scanLimit = d.scanLimit := by rw [scanLimit, scanLimit, hkeep 0xB (by decide) (by decide)]
  rw [displays_of_ready hp ht (hdecode.trans hd) (hscan ▸ hs), hdigit]

/-- Settles O57: SLEEP and WAKE write Shutdown only, lamp test and TESTOFF write Test only, and each pair ends in normal
operation. -/
theorem displayReturnsAfterSleepAndLampTest : Obligations.DisplayReturnsAfterSleepAndLampTest := by
  intro s sl k h hp ht hd hs
  constructor
  · obtain ⟨t, u, hsleep, hwake, hdark, hback⟩ := exec_send_send_of_idle sl (g := .shutdown) 0x00 0x01 (by decide) h
    exact ⟨t, u, (execAll_singleton _ s).trans hsleep,
      Device.displays_of_shutdown k hdark.poweredOn (hdark.lampTest_kept.trans ht),
      (execAll_singleton _ t).trans hwake,
      Device.displays_of_kept (fun a hC _ => hback.kept a hC) hback.poweredOn (hback.lampTest_kept.trans ht) hd hs⟩
  · obtain ⟨t, u, htest, htestOff, hlit, hback⟩ := exec_send_send_of_idle sl (g := .test) 0x01 0x00 (by decide) h
    exact ⟨t, u, htest,
      Device.displays_of_lampTest k (hlit.poweredOn_kept.trans hp) hlit.lampTest,
      (execAll_singleton _ t).trans htestOff,
      Device.displays_of_kept (fun a _ hF => hback.kept a hF) (hback.poweredOn_kept.trans hp) hback.lampTest hd hs⟩

end Sys2Proof.Machine

/-! PROOFS. The statements about power-on, the reset input, waiting and the end of every step. -/

namespace Sys2Proof.Machine

/-! Power-on and the reset input. -/

/-- With the link idle and no sticky bit set, chip select is high and STATUS reads zero (R24, R25). -/
theorem outputs_of_idle_of_clear {s : State} (hl : s.link = .idle) (hk : s.sticky = .clear) :
    s.csN = 1 ∧ s.status = 0x00 := by
  rw [State.csN, State.status, hl, hk]
  exact ⟨rfl, rfl⟩

/-- A reset leaves the link idle: it closes an open cycle (R230, R231). -/
@[simp] theorem applyReset_link (s : State) : (applyReset s).link = .idle := by
  cases hl : s.link with
  | idle => rw [applyReset_of_idle hl, hl]
  | acquired => rw [applyReset_of_acquired hl]

/-- A reset gives no response (R230). -/
@[simp] theorem applyReset_response (s : State) : (applyReset s).response = none := rfl

@[simp] theorem applyReset_host (s : State) : (applyReset s).host = s.host := by
  cases hl : s.link with
  | idle => rw [applyReset_of_idle hl]
  | acquired => rw [applyReset_of_acquired hl]

/-- A reset from a quiet trace adds at most its own event, having no response (R231). -/
theorem trace_applyReset {s : State} (htr : s.trace = []) :
    (applyReset s).trace = [] ∨ (applyReset s).trace = [.csHigh] := by
  simpa [OutputsOk] using outputsOk_applyReset htr

/-- A command word is answered in its own step, and only its move is taken (R33, R78). -/
theorem step_of_present {s : State} {w : Command} {rest : List HostMove} (h : s.host = .present w :: rest) :
    ∃ t, step s = .next t ∧ t.response ≠ none ∧ t.host = rest := by
  cases hc : commandChecks w s.link with
  | some e => exact ⟨_, step_of_commandChecks_some h hc, by simp, rfl⟩
  | none =>
    obtain ⟨es, l, result, hstep⟩ := step_of_commandChecks_none h hc
    exact ⟨_, hstep, by simp, rfl⟩

/-- Settles O1: power-on and a reset both leave the link idle and no sticky bit set, which fixes chip select and STATUS; a
command before a reset takes its own move only. -/
theorem resetPutsBlockInResetState : Obligations.ResetPutsBlockInResetState := by
  refine ⟨fun c => ?_, fun s rest h => ?_, fun s w rest h => step_of_present h⟩
  · obtain ⟨hcs, hstatus⟩ := outputs_of_idle_of_clear (State.powerOn_link c) (State.powerOn_sticky c)
    exact ⟨rfl, hcs, hstatus, rfl, rfl, rfl⟩
  · obtain ⟨hcs, hstatus⟩ := outputs_of_idle_of_clear (applyReset_link _) (applyReset_sticky _)
    exact ⟨_, step_of_assertReset h, applyReset_link _, hcs, hstatus, applyReset_sticky _, applyReset_response _,
      trace_applyReset rfl, applyReset_host _⟩

/-- Settles O2: with the link idle a reset is quiet, with the link open it is one CsHigh and the devices latch (R55). -/
theorem resetWithOpenLinkLatchesDevices : Obligations.ResetWithOpenLinkLatchesDevices := by
  intro s rest h
  refine ⟨_, step_of_assertReset h, fun hl => ?_, fun hl => ?_⟩
  · simp [applyReset_of_idle, hl]
  · simp [applyReset_of_acquired, hl]

/-- Settles O36: at power-on there is no response and no event. -/
theorem outputsOkAtPowerOn : Obligations.OutputsOkAtPowerOn :=
  have hpowerOn (c : Chain) : OutputsOk (State.powerOn c) := .inl rfl
  ⟨hpowerOn, hpowerOn .zero⟩

/-! Steps in general. -/

/-- Settles O5: with no move to take the ports are cleared (R233). -/
theorem blockWaitsForFirstWord : Obligations.BlockWaitsForFirstWord := by
  intro s h
  rw [step, takeMove_nil h]
  rfl

/-- Well-formed outputs hold at most the 48 events of a SHOW (R247). -/
theorem OutputsOk.length_trace_le {s : State} (h : OutputsOk s) : s.trace.length ≤ 48 := by
  cases hr : s.response with
  | none =>
    rw [OutputsOk, hr] at h
    obtain htr | htr := h
    · simp [htr]
    · simp [htr]
  | some r =>
    rw [OutputsOk, hr] at h
    obtain ⟨-, -, hcount⟩ := h
    have hle : ∀ n ∈ [0, 1, 8, 32, 48], n ≤ 48 := by decide
    exact hle _ hcount

/-- Settles O6: every step answers a next state, and its outputs are well formed (O35). -/
theorem everyStepAnswersWithin48Events : Obligations.EveryStepAnswersWithin48Events := by
  intro s
  obtain ⟨t, -, hstep⟩ := step_playsOnBus s
  exact ⟨_, hstep s.chain, (everyStepLeavesOutputsOk s _ (hstep s.chain)).length_trace_le⟩

end Sys2Proof.Machine

/-! PROOFS. The statements about the data line below the bus events and about the zeros the model chooses at reset. -/

namespace Sys2Proof.Machine

/-! One shift register under a list of bits: what it holds afterwards, and what falls out of its top. -/

/-- The bit shifted in is the lowest, and every other moves up one place. -/
theorem getElem_shiftBitIn (w : WireWord) (b : Bool) {i : Nat} (hi : i < 16) :
    (shiftBitIn w b)[i] = if i = 0 then b else w[i - 1] := by
  rw [← BitVec.getLsbD_eq_getElem, shiftBitIn, BitVec.getLsbD_append]
  cases i with
  | zero => simp
  | succ i => simp [show i < 15 by omega, show i < 16 by omega]

/-- A shift register after a list of bits, first bit first. -/
def shiftBitsIn (w : WireWord) (bs : List Bool) : WireWord := bs.foldl shiftBitIn w

/-- The bits that fall out of the top of a shift register while a list of bits is shifted in. -/
def bitsOut (w : WireWord) : List Bool → List Bool
  | [] => []
  | b :: bs => w.getLsbD 15 :: bitsOut (shiftBitIn w b) bs

/-- The last bit shifted in is the lowest; above the new bits stands what was at the low end. -/
theorem getLsbD_shiftBitsIn (w : WireWord) (bs : List Bool) {i : Nat} (hi : i < 16) :
    (shiftBitsIn w bs).getLsbD i = if h : i < bs.length then bs[bs.length - 1 - i] else w.getLsbD (i - bs.length) := by
  induction bs generalizing w with
  | nil => rfl
  | cons b bs ih =>
    have hcons : shiftBitsIn w (b :: bs) = shiftBitsIn (shiftBitIn w b) bs := rfl
    rw [hcons, ih]
    obtain hlt | heq | hgt := Nat.lt_trichotomy i bs.length
    · simp [hlt, Nat.lt_succ_of_lt hlt, List.getElem_cons, show bs.length - i ≠ 0 by omega,
        show bs.length - 1 - i = bs.length - i - 1 by omega]
    · simp [heq, getElem_shiftBitIn]
    · have hold : i - bs.length < 16 := by omega
      simp [show ¬ i < bs.length by omega, show ¬ i < bs.length + 1 by omega, hold, getElem_shiftBitIn,
        show i - bs.length ≠ 0 by omega, Nat.sub_sub, show i - (bs.length + 1) < 16 by omega]

/-- A byte's bits are numbered from the end of the order they are sent in. -/
theorem getElem_serialBits (b : Byte) {i : Nat} (hi : i < (serialBits b).length) :
    (serialBits b)[i] = b.getLsbD (7 - i) := by
  change i < 8 at hi
  interval_cases i <;> rfl

/-- The bits of a byte replace the low byte, which moves up (R53). -/
theorem shiftBitsIn_serialBits (w : WireWord) (b : Byte) : shiftBitsIn w (serialBits b) = bytePair (lowByte w) b := by
  apply BitVec.eq_of_getLsbD_eq
  intro i hi
  have hlen : (serialBits b).length = 8 := rfl
  rw [getLsbD_shiftBitsIn w _ hi, getLsbD_bytePair]
  by_cases h : i < 8
  · simp [hlen, h, getElem_serialBits, show 7 - (7 - i) = i by omega]
  · simp [hlen, h, lowByte, show i - 8 < 8 by omega]

/-- While a byte is shifted in, the high byte falls out, most significant bit first (R51). -/
theorem bitsOut_serialBits (w : WireWord) (b : Byte) : bitsOut w (serialBits b) = serialBits (highByte w) := by
  simp [serialBits, bitsOut, getElem_shiftBitIn, highByte]

/-! The chain on the data line. -/

/-- Each shift register takes the bits that fall out of the one before it (R51). -/
theorem Chain.shiftBits_eq (c : Chain) (bs : List Bool) :
    c.shiftBits bs =
      { dev1 := { c.dev1 with sr := shiftBitsIn c.dev1.sr bs }
        dev2 := { c.dev2 with sr := shiftBitsIn c.dev2.sr (bitsOut c.dev1.sr bs) }
        dev3 := { c.dev3 with sr := shiftBitsIn c.dev3.sr (bitsOut c.dev2.sr (bitsOut c.dev1.sr bs)) } } := by
  induction bs generalizing c with
  | nil => rfl
  | cons b bs ih => exact ih (c.shiftBit b)

/-- Settles O50: each shift register takes a byte's bits and passes the bits of its high byte on. -/
theorem bitSerialShiftIsByteShift : Obligations.BitSerialShiftIsByteShift := by
  intro c b
  simp only [Chain.shiftBits_eq, bitsOut_serialBits, shiftBitsIn_serialBits, Chain.shift]

/-! The devices at the model's reset. -/

@[simp] theorem Device.reg_zero (a : BitVec 4) : Device.zero.reg a = 0 := Vector.getElem_replicate _

@[simp] theorem Chain.dev_zero (p : Position) : Chain.zero.dev p = .zero := by
  cases p <;> rfl

/-- Settles O3: reset is power-on with the zero chain, whose devices are all the zero device. -/
theorem resetIsPowerOnWithZeroDevices : Obligations.ResetIsPowerOnWithZeroDevices := by
  refine ⟨rfl, rfl, fun p => ?_⟩
  have hdev : State.reset.chain.dev p = .zero := Chain.dev_zero p
  rw [hdev]
  exact ⟨rfl, Device.reg_zero⟩

end Sys2Proof.Machine
